-- ==== Sys2Proof/Word.lean ====
section
/-! DEFINITION. The plain types of the block: its 8-bit words, its channel and phase numbers, its banks of five. -/

namespace Sys2Proof

/-- One 8-bit quantity: a Channel Reading, a Cancelled Value, a Drive Output component, an operation word
(30_encoding.md R90, R99). -/
abbrev Byte := BitVec 8

/-- A sensor channel, 0 = leftmost to 4 = rightmost; also its ADC input number (20_memory.md R62). -/
abbrev Channel := Fin 5

/-- A value of the phase register `PH`, 0..22 (10_state.md R30: "A model should type it as a number below 23"). -/
abbrev Phase := Fin 23

/-- Five 8-bit registers, one a channel: a bank `ON`, `OFF` or `CV` (10_state.md R21 to R23). -/
abbrev Bank5 := Vector Byte 5

end Sys2Proof
end

