-- ==== Sys2Proof/Syntax.lean ====
section
/-! DEFINITION. The operations of 30_encoding.md R92, one constructor per row of spec/opcode_table.json, and the
finite sets of names the rules use. -/

namespace Sys2Proof

/-- The reading bank a SAMP writes (30_encoding.md R95: field `B`, 1 = `ON`). -/
inductive Bank where
  | off
  | on
  deriving DecidableEq, Repr

/-- The motor side a DRV addresses (30_encoding.md R95: field `B`, 0 = left). -/
inductive Side where
  | left
  | right
  deriving DecidableEq, Repr

/-- One operation of the step sequencer. Operand types admit exactly the operands of R91 and R95, so every term is
well formed. -/
inductive Instr where
  /-- `EMIT b` (40_acquisition.md R120). -/
  | emit (b : Bool)
  /-- `WAIT` (R121). -/
  | wait
  /-- `SAMP bank,ch` (R122). -/
  | samp (bank : Bank) (ch : Channel)
  /-- `CANC` (R123). -/
  | canc
  /-- `RECV` (41_classifier.md R140). -/
  | recv
  /-- `CLSF` (R142). -/
  | clsf
  /-- `MAP` (42_drive_mapper.md R160). -/
  | map
  /-- `DRV side` (R166). -/
  | drv (side : Side)
  /-- `DISP LABEL` (43_display_loop.md R180). -/
  | dispLabel
  /-- `DISP VALUES` (R181). -/
  | dispValues
  /-- `LOOP` (R183). -/
  | loop
  deriving DecidableEq, Repr

/-- The classes of reserved words of 30_encoding.md R94. -/
inductive ReservedWhy where
  /-- `OPC` is one of 0000, 1010, 1011, 1100, 1101, 1110. -/
  | opcode
  /-- `CH` is not 0 in an operation that has no channel. -/
  | channelUnused
  /-- `B` is 1 in an operation that has no selector (and `CH` is 0). -/
  | selectorUnused
  /-- a SAMP word with `CH` in 5..7. -/
  | channelRange
  deriving DecidableEq, Repr

/-- What `decode` answers (30_encoding.md R106): an operation, or `reserved` with its class. -/
inductive Decoded where
  | op (i : Instr)
  | reserved (why : ReservedWhy)
  deriving DecidableEq, Repr

/-- The values of `CAT` (30_encoding.md R97); 6 and 7 are excluded by the type. -/
inductive Category where
  /-- 0: no row matches. -/
  | none
  /-- 1: Forward (centered-narrow). -/
  | fwdNarrow
  /-- 2: Forward (centered-wide). -/
  | fwdWide
  /-- 3: Turn Left. -/
  | left
  /-- 4: Turn Right. -/
  | right
  /-- 5: Stop. -/
  | stop
  deriving DecidableEq, Repr

/-- The values of `LBL` (30_encoding.md R98); 5..7 are excluded by the type. -/
inductive Label where
  /-- 0: no category has matched since reset. -/
  | none
  /-- 1: "Forward". -/
  | forward
  /-- 2: "Turn Left". -/
  | turnLeft
  /-- 3: "Turn Right". -/
  | turnRight
  /-- 4: "Stop". -/
  | stop
  deriving DecidableEq, Repr

/-- A line of display text, character 0 first (30_encoding.md R101, 20_memory.md R63). -/
abbrev Text := List Char

/-- The externally visible events (20_memory.md R75). -/
inductive Event where
  | emitSet (b : Bool)
  | adcRead (ch : Channel) (v : Byte)
  | serRecv (v : Nat)
  | motWrite (side : Side) (v : Byte)
  | dispWrite (row : Nat) (text : Text)
  deriving DecidableEq, Repr

end Sys2Proof
end

