-- ==== Sys2Proof/Config.lean ====
section
/-! DEFINITION. The constants of one block (00_scope.md R7) and the free values the environment supplies. -/

namespace Sys2Proof

/-- Where in the cycle the Speed Command is received (00_scope.md R7 `RECV_POS`, 30_encoding.md R105). -/
inductive RecvPos where
  /-- `RECV` is step 15 (the reference). -/
  | preClassify
  /-- `RECV` is step 0. -/
  | cycleStart
  deriving DecidableEq, Repr

/-- What a value with more digits than its field does (43_display_loop.md R182 `DISP_OVERFLOW`). The spec asks for two
options and does not define which characters `truncate` keeps: DESIGN CHOICE (log 17), both are offered. -/
inductive DispOverflow where
  /-- All digits are written (the default). -/
  | expand
  /-- The field is cut to its width, keeping its first characters. -/
  | truncateKeepFirst
  /-- The field is cut to its width, keeping its last characters. -/
  | truncateKeepLast
  deriving DecidableEq, Repr

/-- The constants of 00_scope.md R7, hardwired in one block (10_state.md R31), with the reset triple of
93_implementation_defined.md U1. `N_CH` = 5 and `N_STEP` = 23 are in the types `Channel` and `Phase`. -/
structure Config where
  /-- `RD_W`, width of a Channel Reading. -/
  rdW : Nat
  /-- `RD_MAX`, largest reading. -/
  rdMax : Nat
  /-- `THR`, the Threshold. -/
  thr : Nat
  /-- `TURN_DIV`, divisor of the inner wheel's speed. -/
  turnDiv : Nat
  /-- `SPD_MIN`, lower bound of a Drive Output component. -/
  spdMin : Int
  /-- `SPD_MAX`, upper bound of a Drive Output component. -/
  spdMax : Int
  /-- `SPD_W`, width of a Drive Output component. -/
  spdW : Nat
  /-- `T_STAB` in milliseconds; no rule reads it (70_reset_and_hazards.md R239, log 14). -/
  tStabMs : Nat
  /-- `BASE_W`, width of the Speed Command. -/
  baseW : Nat
  /-- `DISP_COLS`, longest text of one display write. -/
  dispCols : Nat
  /-- `DISP_FW`, the field widths of the five values. -/
  dispFw : Vector Nat 5
  /-- `LABEL_ROW`. -/
  labelRow : Nat
  /-- `VALUE_ROW`. -/
  valueRow : Nat
  /-- `RECV_POS`. -/
  recvPos : RecvPos
  /-- `DISP_OVERFLOW`. -/
  dispOverflow : DispOverflow
  /-- `LS0`, the reset value of `LS`. -/
  ls0 : Byte
  /-- `RS0`, the reset value of `RS`. -/
  rs0 : Byte
  /-- `LBL0`, the reset value of `LBL`. -/
  lbl0 : Label
  /-- whether the configuration asks for the Timeout mode, which the block does not implement
  (60_exceptions.md R219); such a configuration is refused. -/
  timeoutMode : Bool
  deriving DecidableEq, Repr

/-- Every constant at its reference value (00_scope.md R7; 10_state.md R36 for the reset triple). -/
def Config.reference : Config where
  rdW := 8
  rdMax := 255
  thr := 120
  turnDiv := 6
  spdMin := 0
  spdMax := 255
  spdW := 8
  tStabMs := 10
  baseW := 8
  dispCols := 16
  dispFw := #v[3, 3, 3, 3, 2]
  labelRow := 0
  valueRow := 1
  recvPos := .preClassify
  dispOverflow := .expand
  ls0 := 0
  rs0 := 0
  lbl0 := .none
  timeoutMode := false

/-- FREE VALUE. What the ADC driver answers at its n-th attempt once the listed answers (`State.adcIn`) are used up:
nothing (the read holds) or any reading (20_memory.md R66, 40_acquisition.md R128). Log 1. -/
opaque Config.adcAnswer : Nat → Option Byte

/-- FREE VALUE. What the serial driver answers at its n-th attempt once the listed answers (`State.serIn`) are used up:
nothing (the receive holds) or any number, of which `ser_data` carries `BASE_W` bits (41_classifier.md R140,
20_memory.md R66). Log 1. -/
opaque Config.serAnswer : Nat → Option Nat

end Sys2Proof
end

