-- ==== Sys2Proof/WellFormed.lean ====
section
/-! DEFINITION. Which configurations the rules hold for (00_scope.md R7, "Constraints a configuration must meet").
An instruction needs no check: the types of `Instr` admit exactly the operands of 30_encoding.md R91. Words and ROMs are
checked in Decode.lean. -/

namespace Sys2Proof.Config

/-- A reading is 8 bits wide and `RD_MAX` = 2^`RD_W` - 1 (00_scope.md R7; registers of 10_state.md R21 to R23). -/
def readingWidthOk (c : Config) : Bool := c.rdW == 8 && c.rdMax == 255

/-- `THR` <= `RD_MAX` (00_scope.md R7). -/
def thresholdOk (c : Config) : Bool := decide (c.thr ≤ c.rdMax)

/-- `TURN_DIV` >= 1 (00_scope.md R7). -/
def divisorOk (c : Config) : Bool := decide (1 ≤ c.turnDiv)

/-- `SPD_MIN` = 0 and `SPD_MAX` = 2^`SPD_W` - 1, with the 8-bit speeds of 10_state.md R27. -/
def speedRangeOk (c : Config) : Bool := c.spdW == 8 && c.spdMin == 0 && c.spdMax == 255

/-- `BASE_W` >= 1 (00_scope.md R7). -/
def commandWidthOk (c : Config) : Bool := decide (1 ≤ c.baseW)

/-- The most characters a field of width `w` can take: a value has at most three digits (43_display_loop.md R182). -/
def fieldMax (c : Config) (w : Nat) : Nat :=
  match c.dispOverflow with
  | .expand => max w 3
  | .truncateKeepFirst => w
  | .truncateKeepLast => w

/-- Both lines the block writes fit `DISP_COLS`: the longest label has 10 characters (30_encoding.md R98) and the
value row takes the five fields (DEDUCED from `write_line(row, text[<=16 chars])`, 60_exceptions.md R215; log 9).
And `DISP_COLS` is at most 16: 00_scope.md R7 sets no bound, the bound is the model's choice (DEDUCED from the 16
characters of `disp_text` and `disp_len` in 20_memory.md R61 and of a line in 30_encoding.md R101; log 9). -/
def linesOk (c : Config) : Bool :=
  decide (c.dispCols ≤ 16) && decide (10 ≤ c.dispCols) &&
  decide (c.fieldMax c.dispFw[0] + c.fieldMax c.dispFw[1] + c.fieldMax c.dispFw[2] + c.fieldMax c.dispFw[3]
    + c.fieldMax c.dispFw[4] ≤ c.dispCols)

/-- The configuration is one the rules hold for as written. -/
def wf (c : Config) : Bool :=
  c.readingWidthOk && c.thresholdOk && c.divisorOk && c.speedRangeOk && c.commandWidthOk && c.linesOk

end Sys2Proof.Config
end

