-- ==== Sys2Proof/Decode.lean ====
section
/-! DEFINITION. Operation words: fields, decoder, encoder and the two step sequences (30_encoding.md R90 to R95, R105,
R106). -/

namespace Sys2Proof

/-- Field `OPC` = word[7:4] (30_encoding.md R91). -/
def opcField (w : Byte) : BitVec 4 := w.extractLsb' 4 4

/-- Field `B` = word[3] (30_encoding.md R91). -/
def selField (w : Byte) : Bool := w.getLsbD 3

/-- Field `CH` = word[2:0] (30_encoding.md R91). -/
def chField (w : Byte) : BitVec 3 := w.extractLsb' 0 3

/-- A word of an operation that has a selector and no channel: `CH` must be 0 (30_encoding.md R91). -/
def decodeSelected (w : Byte) (i : Bool → Instr) : Decoded :=
  if chField w = 0 then .op (i (selField w)) else .reserved .channelUnused

/-- A word of an operation that has neither selector nor channel: `CH` and `B` must be 0 (30_encoding.md R91). -/
def decodePlain (w : Byte) (i : Instr) : Decoded :=
  if chField w = 0 then
    if selField w then .reserved .selectorUnused else .op i
  else .reserved .channelUnused

/-- A SAMP word: `CH` must be in 0..4 (30_encoding.md R91, R95). -/
def decodeSamp (w : Byte) : Decoded :=
  if h : (chField w).toNat < 5 then .op (.samp (if selField w then .on else .off) ⟨(chField w).toNat, h⟩)
  else .reserved .channelRange

/-- `decode(word)` (30_encoding.md R92, R94, R95, R106), total on bytes. -/
def decode (w : Byte) : Decoded :=
  match (opcField w).toNat with
  | 1 => decodeSelected w .emit
  | 2 => decodePlain w .wait
  | 3 => decodeSamp w
  | 4 => decodePlain w .canc
  | 5 => decodePlain w .recv
  | 6 => decodePlain w .clsf
  | 7 => decodePlain w .map
  | 8 => decodeSelected w fun b => .drv (if b then .right else .left)
  | 9 => decodeSelected w fun b => if b then .dispValues else .dispLabel
  | 15 => decodePlain w .loop
  | _ => .reserved .opcode

/-- The word with the three fields given (30_encoding.md R90). -/
def wordOf (opc : BitVec 4) (sel : Bool) (ch : BitVec 3) : Byte := (opc ++ BitVec.ofBool sel) ++ ch

/-- The word of an operation (30_encoding.md R92). -/
def encode : Instr → Byte
  | .emit b => wordOf 0b0001 b 0
  | .wait => wordOf 0b0010 false 0
  | .samp bank ch => wordOf 0b0011 (bank == .on) (BitVec.ofNat 3 ch.val)
  | .canc => wordOf 0b0100 false 0
  | .recv => wordOf 0b0101 false 0
  | .clsf => wordOf 0b0110 false 0
  | .map => wordOf 0b0111 false 0
  | .drv side => wordOf 0b1000 (side == .right) 0
  | .dispLabel => wordOf 0b1001 false 0
  | .dispValues => wordOf 0b1001 true 0
  | .loop => wordOf 0b1111 false 0

/-- The decoder's operation, if the word is legal. -/
def Decoded.instr? : Decoded → Option Instr
  | .op i => some i
  | .reserved _ => none

/-- The word is one of the 22 legal words (30_encoding.md R94). -/
def legalWord (w : Byte) : Bool := (decode w).instr?.isSome

/-- The first reserved word of a ROM, if it has one; a ROM that has one is refused (30_encoding.md R94). -/
def firstReserved (rom : Vector Byte 23) : Option Byte := rom.toList.find? fun w => !legalWord w

/-- The step sequence as a byte string (30_encoding.md R93, and R105 for `cycle_start`). -/
def stepRom : RecvPos → Vector Byte 23
  | .preClassify =>
    #v[0x18, 0x20, 0x38, 0x39, 0x3A, 0x3B, 0x3C, 0x10, 0x20, 0x30, 0x31, 0x32, 0x33, 0x34, 0x40, 0x50, 0x60, 0x70,
       0x80, 0x88, 0x90, 0x98, 0xF0]
  | .cycleStart =>
    #v[0x50, 0x18, 0x20, 0x38, 0x39, 0x3A, 0x3B, 0x3C, 0x10, 0x20, 0x30, 0x31, 0x32, 0x33, 0x34, 0x40, 0x60, 0x70,
       0x80, 0x88, 0x90, 0x98, 0xF0]

/-- The instruction the decoder reads from the first `nbits` bits of `w`, every higher bit 0. Every operation is one
8-bit word (30_encoding.md R90, R104). -/
def decodeTableWord (nbits w : Nat) : Option Instr := (decode (BitVec.ofNat 8 (w % 2 ^ nbits))).instr?

end Sys2Proof
end

