-- ==== Sys2Proof/Machine/State.lean ====
section
/-! DEFINITION. The state of the block (10_state.md R20), the inputs its environment still has for it, the event history,
the outcomes a step can stop with, and the state after reset (R36). -/

namespace Sys2Proof.Machine

/-- The machine. `on` to `ph` are the registers of 10_state.md R20; `rom` and `cfg` are immutable (R37); `adcIn` to `rstIn`
are the environment's inputs (R35, R37) and `events` the observation (20_memory.md R75). -/
structure State where
  /-- `ON[0..4]` (10_state.md R21). -/
  on : Bank5
  /-- `OFF[0..4]` (R22). -/
  off : Bank5
  /-- `CV[0..4]` (R23). -/
  cv : Bank5
  /-- `BASE` (R24), a number of `BASE_W` bits. -/
  base : Nat
  /-- `PAT` (R25). -/
  pat : BitVec 5
  /-- `CAT` (R26). -/
  cat : Category
  /-- `LS` (R27). -/
  ls : Byte
  /-- `RS` (R27). -/
  rs : Byte
  /-- `LBL` (R28). -/
  lbl : Label
  /-- `EMIT` (R29). -/
  emit : Bool
  /-- `PH` (R30). -/
  ph : Phase
  /-- The step ROM (30_encoding.md R93, 20_memory.md R74). -/
  rom : Vector Byte 23
  /-- The constants of this block (10_state.md R31, R37). -/
  cfg : Config
  /-- The ADC driver's coming answers, one an attempt; `none` = no answer at that attempt. When the list is used up,
  `Config.adcAnswer` answers (log 1). -/
  adcIn : List (Option Byte)
  /-- Attempts made at the ADC so far (log 2). -/
  adcPolls : Nat
  /-- The serial driver's coming answers, as `adcIn`; then `Config.serAnswer` (log 1). -/
  serIn : List (Option Nat)
  /-- Attempts made at the serial driver so far (log 2). -/
  serPolls : Nat
  /-- The coming levels of pin `rst`, one a step; low when the list is used up (log 3). -/
  rstIn : List Bool
  /-- The event history, oldest first (20_memory.md R75). -/
  events : List Event
  deriving DecidableEq, Repr

/-- The block raises no exception and nothing in it stops with a fault (60_exceptions.md R200, R202: a hang is a hold, "not
a fault"), so there is no fault reason. -/
inductive Fault where
  deriving DecidableEq, Repr

/-- Why the machine has no next state. -/
inductive Refusal where
  /-- Raised by an arm of `exec` whose instruction has no meaning yet (no arm today). Safe. -/
  | notModelled (mnemonic : String)
  /-- Raised by `step`: the ROM holds this reserved word, and "the machine refuses a program that contains one"
  (30_encoding.md R94). Safe. -/
  | reservedWord (w : Byte)
  /-- Raised by an operation other than LOOP that would complete at step 22: `PH` "goes from 22 to 0 by LOOP only" and 23..31 are
  excluded (10_state.md R30, 93_implementation_defined.md U9). No step sequence of the spec does this. Safe. -/
  | phaseOverrun
  /-- Raised by `step`: the configuration breaks a constraint of 00_scope.md R7 or a further one of log 9; R7 does not say
  that a model refuses (DEDUCED, log 9). Safe. -/
  | illFormedConfig
  /-- Raised by `step`: the configuration asks for the Timeout mode, which "a model must refuse" (60_exceptions.md R219).
  Safe. -/
  | timeoutMode
  deriving DecidableEq, Repr

/-- The three outcomes of a step of this machine. -/
abbrev Result := Host.Outcome State Fault Refusal

/-- The block with constants `c` right after reset (10_state.md R36, 70_reset_and_hazards.md R231), before its environment
has supplied anything: no listed answers, `rst` low, no event recorded. -/
def State.resetOf (c : Config) : State where
  on := Vector.replicate 5 0
  off := Vector.replicate 5 0
  cv := Vector.replicate 5 0
  base := 0
  pat := 0
  cat := .none
  ls := c.ls0
  rs := c.rs0
  lbl := c.lbl0
  emit := false
  ph := 0
  rom := stepRom c.recvPos
  cfg := c
  adcIn := []
  adcPolls := 0
  serIn := []
  serPolls := 0
  rstIn := []
  events := []

/-- The reference block right after reset. -/
def State.reset : State := State.resetOf Config.reference

end Sys2Proof.Machine
end

