-- ==== Sys2Proof/Machine/Ops.lean ====
section
/-! DEFINITION. The shared operations over the registers, the collaborators' transactions and the phase register.
The block has no memory (20_memory.md R60) and no exception to take or return from (60_exceptions.md R200, R207), so there
is neither a memory operation nor an exception entry here. -/

namespace Sys2Proof.Machine

/-! ### Register writes -/

/-- `EMIT <- b`. -/
def State.setEmit (s : State) (b : Bool) : State := { s with emit := b }

/-- `ON[ch] <- v`. -/
def State.setOn (s : State) (ch : Channel) (v : Byte) : State := { s with on := s.on.set ch v }

/-- `OFF[ch] <- v`. -/
def State.setOff (s : State) (ch : Channel) (v : Byte) : State := { s with off := s.off.set ch v }

/-- `CV[0..4] <- v`, all five in one step (10_state.md R23). -/
def State.setCv (s : State) (v : Bank5) : State := { s with cv := v }

/-- `BASE <- v`. -/
def State.setBase (s : State) (v : Nat) : State := { s with base := v }

/-- `PAT <- p` and `CAT <- c`. -/
def State.setClass (s : State) (p : BitVec 5) (c : Category) : State := { s with pat := p, cat := c }

/-- `LS <- l`, `RS <- r`, `LBL <- lab`, "both together" (10_state.md R27, R28). -/
def State.setDrive (s : State) (l r : Byte) (lab : Label) : State := { s with ls := l, rs := r, lbl := lab }

/-- `PH <- p`. -/
def State.setPh (s : State) (p : Phase) : State := { s with ph := p }

/-- Record one event at the end of the history (20_memory.md R75). -/
def State.record (s : State) (e : Event) : State := { s with events := s.events ++ [e] }

/-! ### The phase register -/

/-- `PH + 1`, which exists below 22 only: `PH` never wraps (10_state.md R30). -/
def nextPhase (p : Phase) : Option Phase := if h : p.val + 1 < 23 then some ⟨p.val + 1, h⟩ else none

/-- End a step whose outcome is `after (PH + 1)` (43_display_loop.md R184). -/
def complete (s : State) (after : Phase → State) : Result :=
  match nextPhase s.ph with
  | some p => .next (after p)
  | none => .refused .phaseOverrun

/-- End a non-blocking operation: its effect `t`, then `PH <- PH + 1`. -/
def advance (s t : State) : Result := complete s fun p => t.setPh p

/-! ### Blocking transactions (20_memory.md R65, R66) -/

/-- What the ADC driver answers at this attempt. -/
def State.adcAnswer (s : State) : Option Byte :=
  match s.adcIn with
  | a :: _ => a
  | [] => Config.adcAnswer s.adcPolls

/-- One attempt at the ADC has been made. -/
def State.adcPolled (s : State) : State := { s with adcIn := s.adcIn.tail, adcPolls := s.adcPolls + 1 }

/-- `ser_data` carries `BASE_W` bits (20_memory.md R61, 10_state.md R24; log 12). -/
def serData (c : Config) (n : Nat) : Nat := n % 2 ^ c.baseW

/-- What the serial driver answers at this attempt, as a `BASE_W`-bit number. -/
def State.serAnswer (s : State) : Option Nat :=
  (match s.serIn with
  | a :: _ => a
  | [] => Config.serAnswer s.serPolls).map (serData s.cfg)

/-- One attempt at the serial driver has been made. -/
def State.serPolled (s : State) : State := { s with serIn := s.serIn.tail, serPolls := s.serPolls + 1 }

/-- End a blocking operation: with an answer, its effect and `PH <- PH + 1`; with none it holds, "no register changes, `PH`
keeps its value" (00_scope.md R9, 40_acquisition.md R128). That a step goes on is told before the answer, which may be a
free value, is looked at. -/
def blocking {α : Type} (s : State) (answer : Option α) (held : State) (done : α → State) : Result :=
  match nextPhase s.ph with
  | some p =>
    .next (match answer with
      | some v => (done v).setPh p
      | none => held)
  | none =>
    match answer with
    | some _ => .refused .phaseOverrun
    | none => .next held

/-! ### Reset (70_reset_and_hazards.md R231) -/

/-- `rst` is asserted: every register takes its reset value; no event, no collaborator call, and what is no register (the
ROM, the environment's inputs, the history) stays. -/
def State.assertReset (s : State) : State :=
  { State.resetOf s.cfg with
    rom := s.rom
    adcIn := s.adcIn
    adcPolls := s.adcPolls
    serIn := s.serIn
    serPolls := s.serPolls
    rstIn := s.rstIn
    events := s.events }

/-- The level of `rst` at this step. -/
def State.rstLevel (s : State) : Bool := s.rstIn.headD false

/-- The level of `rst` at this step has been taken. -/
def State.rstTaken (s : State) : State := { s with rstIn := s.rstIn.tail }

/-- The five bits of `PH` (10_state.md R30). -/
def State.phBits (s : State) : BitVec 5 := BitVec.ofNat 5 s.ph.val

end Sys2Proof.Machine
end

