-- ==== Sys2Proof/Machine/Operands.lean ====
section
/-! DEFINITION. Operand forms (30_encoding.md R95), the codes of the data encodings (R97, R98) and the arithmetic on register
values: cancelling subtraction, turn division, saturation, and the text of the display rows. -/

namespace Sys2Proof.Machine

/-! ### Operand forms -/

/-- Write reading `v` of channel `ch` to the bank the operation word names (40_acquisition.md R122). -/
def State.setReading (s : State) (bank : Bank) (ch : Channel) (v : Byte) : State :=
  match bank with
  | .on => s.setOn ch v
  | .off => s.setOff ch v

/-- The register a DRV reads: `LS` for left, `RS` for right (30_encoding.md R95). -/
def State.speedOf (s : State) : Side → Byte
  | .left => s.ls
  | .right => s.rs

/-- The address of a motor side: 0 = left, 1 = right (20_memory.md R60, R61). -/
def sideBit : Side → Bool
  | .left => false
  | .right => true

/-- The code of `CAT` (30_encoding.md R97). -/
def catCode : Category → BitVec 3
  | .none => 0
  | .fwdNarrow => 1
  | .fwdWide => 2
  | .left => 3
  | .right => 4
  | .stop => 5

/-- The code of `LBL` (30_encoding.md R98). -/
def lblCode : Label → BitVec 3
  | .none => 0
  | .forward => 1
  | .turnLeft => 2
  | .turnRight => 3
  | .stop => 4

/-! ### Arithmetic, on exact integers and then narrowed (00_scope.md R8) -/

/-- `csub(on, off) = max(on - off, 0)` (40_acquisition.md R125). -/
def csub (on off : Byte) : Byte := BitVec.ofInt 8 (max ((on.toNat : Int) - (off.toNat : Int)) 0)

/-- `csub` of every channel: the five Cancelled Values of one cycle (40_acquisition.md R123). -/
def cancelAll (on off : Bank5) : Bank5 :=
  #v[csub on[0] off[0], csub on[1] off[1], csub on[2] off[2], csub on[3] off[3], csub on[4] off[4]]

/-- `BASE div TURN_DIV`, the quotient with the remainder discarded (42_drive_mapper.md R162). -/
def turnSpeed (c : Config) (base : Nat) : Nat := base / c.turnDiv

/-- `sat8` before narrowing: `min(max(S, SPD_MIN), SPD_MAX)` for any integer `S` (42_drive_mapper.md R163). -/
def clampSpeed (c : Config) (S : Int) : Int := min (max S c.spdMin) c.spdMax

/-- `sat8(S)` as the register holds it (42_drive_mapper.md R163). -/
def sat8 (c : Config) (S : Int) : Byte := BitVec.ofInt 8 (clampSpeed c S)

/-- The pre-clamp speeds and the label of a category, nothing when no row matched (42_drive_mapper.md R160, R161). -/
def speedRule (c : Config) (base : Nat) : Category → Option (Int × Int × Label)
  | .none => none
  | .fwdNarrow => some (base, base, .forward)
  | .fwdWide => some (base, base, .forward)
  | .left => some (turnSpeed c base, base, .turnLeft)
  | .right => some (base, turnSpeed c base, .turnRight)
  | .stop => some (0, 0, .stop)

/-! ### Display text -/

/-- `label_text(LBL)` (30_encoding.md R98). -/
def labelText : Label → Text
  | .none => []
  | .forward => ['F', 'o', 'r', 'w', 'a', 'r', 'd']
  | .turnLeft => ['T', 'u', 'r', 'n', ' ', 'L', 'e', 'f', 't']
  | .turnRight => ['T', 'u', 'r', 'n', ' ', 'R', 'i', 'g', 'h', 't']
  | .stop => ['S', 't', 'o', 'p']

/-- The decimal digits of `v`, no leading zeros, `0` for zero (43_display_loop.md R182). -/
def decimal (v : Byte) : Text := Nat.toDigits 10 v.toNat

/-- Digits that do not fit their field (43_display_loop.md R182, `DISP_OVERFLOW`). -/
def overflowed (o : DispOverflow) (w : Nat) (digits : Text) : Text :=
  match o with
  | .expand => digits
  | .truncateKeepFirst => digits.take w
  | .truncateKeepLast => digits.drop (digits.length - w)

/-- `fmt(v, w)` (43_display_loop.md R182): right-justified with spaces in `w` columns. -/
def fmt (o : DispOverflow) (v : Byte) (w : Nat) : Text :=
  List.replicate (w - (decimal v).length) ' ' ++ overflowed o w (decimal v)

/-- The text of the value row (43_display_loop.md R181). -/
def valueText (c : Config) (cv : Bank5) : Text :=
  fmt c.dispOverflow cv[0] c.dispFw[0] ++ fmt c.dispOverflow cv[1] c.dispFw[1] ++ fmt c.dispOverflow cv[2] c.dispFw[2]
    ++ fmt c.dispOverflow cv[3] c.dispFw[3] ++ fmt c.dispOverflow cv[4] c.dispFw[4]

/-- The ASCII byte of a character (30_encoding.md R101; PRESUMED, general knowledge, log 16). -/
def asciiByte (c : Char) : Byte := BitVec.ofNat 8 c.toNat

end Sys2Proof.Machine
end

