-- ==== Sys2Proof/Machine/Flags.lean ====
section
/-! DEFINITION. The comparator, the pattern `PAT` and the category `CAT` (41_classifier.md R141 to R148): the block's only
flags (10_state.md R25, R26). -/

namespace Sys2Proof.Machine

/-- `below(v)`: the unsigned comparison `v < THR` (41_classifier.md R141). -/
def below (c : Config) (v : Byte) : Bool := decide (v.toNat < c.thr)

/-- `PAT`: bit `4 - i` is 1 when channel `i` is below the Threshold (10_state.md R25, 30_encoding.md R96). -/
def patternOf (c : Config) (cv : Bank5) : BitVec 5 :=
  BitVec.ofBoolListBE [below c cv[0], below c cv[1], below c cv[2], below c cv[3], below c cv[4]]

/-- The pattern table in priority order (41_classifier.md R143, row 1 as 90_conflicts.md C1 resolves it). -/
def patternTable : List (BitVec 5 × Category) :=
  [(0b00100, .fwdNarrow), (0b01110, .fwdWide), (0b10000, .left), (0b00001, .right), (0b00000, .stop)]

/-- First match wins; `NONE` when no row matches (41_classifier.md R143, R145). -/
def firstMatch (p : BitVec 5) : List (BitVec 5 × Category) → Category
  | [] => .none
  | (q, c) :: rows => if p = q then c else firstMatch p rows

/-- `classify(PAT)` (41_classifier.md R143). -/
def classify (p : BitVec 5) : Category := firstMatch p patternTable

end Sys2Proof.Machine
end

