-- ==== Sys2Proof/Machine/Acquisition.lean ====
section
/-! DEFINITION. The Sensor Acquisition Unit: EMIT, WAIT, SAMP, CANC (40_acquisition.md). -/

namespace Sys2Proof.Machine

/-- `EMIT b` (40_acquisition.md R120). -/
def execEmit (b : Bool) (s : State) : Result := advance s ((s.setEmit b).record (.emitSet b))

/-- `WAIT` (40_acquisition.md R121): one step that only advances `PH`. -/
def execWait (s : State) : Result := advance s s

/-- `SAMP bank,ch` (40_acquisition.md R122, R128). -/
def execSamp (bank : Bank) (ch : Channel) (s : State) : Result :=
  blocking s s.adcAnswer s.adcPolled fun v => (s.adcPolled.setReading bank ch v).record (.adcRead ch v)

/-- `CANC` (40_acquisition.md R123). -/
def execCanc (s : State) : Result := advance s (s.setCv (cancelAll s.on s.off))

end Sys2Proof.Machine
end

