-- ==== Sys2Proof/Machine/Classifier.lean ====
section
/-! DEFINITION. The threshold comparator and position classifier: RECV, CLSF (41_classifier.md). -/

namespace Sys2Proof.Machine

/-- `RECV` (41_classifier.md R140). -/
def execRecv (s : State) : Result :=
  blocking s s.serAnswer s.serPolled fun v => (s.serPolled.setBase v).record (.serRecv v)

/-- `CLSF` (41_classifier.md R142). -/
def execClsf (s : State) : Result :=
  advance s (s.setClass (patternOf s.cfg s.cv) (classify (patternOf s.cfg s.cv)))

end Sys2Proof.Machine
end

