-- ==== Sys2Proof/Machine/DisplayLoop.lean ====
section
/-! DEFINITION. The display writes and the loop: DISP, LOOP (43_display_loop.md). -/

namespace Sys2Proof.Machine

/-- `DISP LABEL` (43_display_loop.md R180). -/
def execDispLabel (s : State) : Result := advance s (s.record (.dispWrite s.cfg.labelRow (labelText s.lbl)))

/-- `DISP VALUES` (43_display_loop.md R181). -/
def execDispValues (s : State) : Result := advance s (s.record (.dispWrite s.cfg.valueRow (valueText s.cfg s.cv)))

/-- `LOOP` (43_display_loop.md R183). -/
def execLoop (s : State) : Result := .next (s.setPh 0)

end Sys2Proof.Machine
end

