-- ==== Sys2Proof/Machine/DriveMapper.lean ====
section
/-! DEFINITION. The drive mapper: MAP, DRV (42_drive_mapper.md). -/

namespace Sys2Proof.Machine

/-- The effect of MAP on the Drive Output: the saturated speeds and the label on a match, no assignment otherwise
(42_drive_mapper.md R160, R164). -/
def mapDrive (s : State) : State :=
  match speedRule s.cfg s.base s.cat with
  | some (l, r, lab) => s.setDrive (sat8 s.cfg l) (sat8 s.cfg r) lab
  | none => s

/-- `MAP` (42_drive_mapper.md R160). -/
def execMap (s : State) : Result := advance s (mapDrive s)

/-- `DRV side` (42_drive_mapper.md R166). -/
def execDrv (side : Side) (s : State) : Result := advance s (s.record (.motWrite side (s.speedOf side)))

end Sys2Proof.Machine
end

