-- ==== Sys2Proof/Machine/Dispatch.lean ====
section
/-! DEFINITION. The meaning of every operation, one arm each. -/

namespace Sys2Proof.Machine

def exec (i : Instr) (s : State) : Host.Outcome State Fault Refusal :=
  match i with
  | .emit b => Sys2Proof.Machine.execEmit b s
  | .wait => Sys2Proof.Machine.execWait s
  | .samp bank ch => Sys2Proof.Machine.execSamp bank ch s
  | .canc => Sys2Proof.Machine.execCanc s
  | .recv => Sys2Proof.Machine.execRecv s
  | .clsf => Sys2Proof.Machine.execClsf s
  | .map => Sys2Proof.Machine.execMap s
  | .drv side => Sys2Proof.Machine.execDrv side s
  | .dispLabel => Sys2Proof.Machine.execDispLabel s
  | .dispValues => Sys2Proof.Machine.execDispValues s
  | .loop => Sys2Proof.Machine.execLoop s

end Sys2Proof.Machine
end

