-- ==== Sys2Proof/Machine/Sequencer.lean ====
section
/-! DEFINITION. Fetching and performing the operation at `PH` (43_display_loop.md R184). -/

namespace Sys2Proof.Machine

/-- `ROM[PH]` (20_memory.md R74). -/
def State.fetch (s : State) : Byte := s.rom[s.ph]

/-- Perform one step: the machine refuses a ROM that holds a reserved word (30_encoding.md R94); otherwise fetch, decode,
perform (43_display_loop.md R184). -/
def perform (s : State) : Result :=
  match firstReserved s.rom with
  | some w => .refused (.reservedWord w)
  | none =>
    match decode s.fetch with
    | .op i => exec i s
    | .reserved _ => .refused (.reservedWord s.fetch)

/-- One step of the block as its inputs find it: a configuration without meaning is refused (00_scope.md R7,
60_exceptions.md R219); while `rst` is asserted no operation is performed and the registers are reset
(70_reset_and_hazards.md R231); otherwise the operation at `PH` is performed. -/
def tick (s : State) : Result :=
  if s.cfg.timeoutMode then .refused .timeoutMode
  else if s.cfg.wf then
    if s.rstLevel then .next s.rstTaken.assertReset else perform s.rstTaken
  else .refused .illFormedConfig

/-- `s` with word `w` in the ROM position `PH` points at, and with `rst` released: the next step performs `w`. -/
def State.placeWord (s : State) (w : Byte) : State :=
  { s with rom := s.rom.set s.ph w, rstIn := s.rstIn.dropWhile id }

end Sys2Proof.Machine
end

