-- ==== Sys2Proof/Machine/Step.lean ====
section
/-! DEFINITION. One step of the machine, and placing an operation word where the next step fetches it. -/

namespace Sys2Proof.Machine

/-- One step (43_display_loop.md R184, 70_reset_and_hazards.md R231). -/
def step (s : State) : Host.Outcome State Fault Refusal := tick s

/-- `s` with the operation word of `nbits` bits `w` stored where `step` fetches next: ROM position `PH` (log 6). -/
def State.withFetchWord (s : State) (nbits w : Nat) : State := s.placeWord (BitVec.ofNat 8 (w % 2 ^ nbits))

end Sys2Proof.Machine
end

