-- ==== Sys2Proof/Machine/Conditions.lean ====
section
/-! DEFINITION. The three error conditions of 60_exceptions.md R201, by the names it gives them for a model's documentation.
None traps and none is recorded: these say when a step meets one, and nothing in `step` reads them. -/

namespace Sys2Proof.Machine

/-- The error taxonomy (60_exceptions.md R201). -/
inductive ErrorCondition where
  /-- `HANG_WAIT`: a driver that does not signal completion (R202). -/
  | hangWait
  /-- `UNCLASSIFIED`: no row of the pattern table matched (R203). -/
  | unclassified
  /-- `OUT_OF_RANGE`: a pre-clamp speed outside 0..255 (R204). -/
  | outOfRange
  deriving DecidableEq, Repr

/-- A pre-clamp speed lies outside the drive range. -/
def speedOutOfRange (s : State) : Bool :=
  match speedRule s.cfg s.base s.cat with
  | some (l, r, _) => decide (l < s.cfg.spdMin ∨ s.cfg.spdMax < l ∨ r < s.cfg.spdMin ∨ s.cfg.spdMax < r)
  | none => false

/-- The operation about to be performed meets the condition (60_exceptions.md R201, column "which operation meets it";
UNCLASSIFIED shows at MAP, which then assigns nothing). -/
def meetsCondition (s : State) (i : Instr) (c : ErrorCondition) : Bool :=
  match i with
  | .samp _ _ => c == .hangWait && s.adcAnswer.isNone
  | .recv => c == .hangWait && s.serAnswer.isNone
  | .map => (c == .unclassified && s.cat == .none) || (c == .outOfRange && speedOutOfRange s)
  | .emit _ => false
  | .wait => false
  | .canc => false
  | .clsf => false
  | .drv _ => false
  | .dispLabel => false
  | .dispValues => false
  | .loop => false

end Sys2Proof.Machine
end

