-- ==== Sys2Proof/Machine/Ports.lean ====
section
/-! DEFINITION. The output ports of 20_memory.md R61 as functions of the state, and what the sinks were last given
(10_state.md R35). Nothing in `step` reads these. Their handshake timing is in no rule (R61) and is not modelled (log 21). -/

namespace Sys2Proof.Machine

/-- The output ports during the step about to be performed. A request and its operands stand together: an operand port is
given by R61 only while its request is high. -/
structure Pins where
  /-- `emit_en`. -/
  emitEn : Bool
  /-- `adc_req` with `adc_ch`. -/
  adc : Option Channel
  /-- `ser_req`. -/
  serReq : Bool
  /-- `mot_stb` with `mot_side`, `mot_val`. -/
  mot : Option (Side × Byte)
  /-- `disp_req` with `disp_row` and the line. -/
  disp : Option (Nat × Text)
  deriving DecidableEq, Repr

/-- The ports of an operation under way in `s` (20_memory.md R61). -/
def pinsOf (s : State) : Instr → Pins
  | .samp _ ch => ⟨s.emit, some ch, false, none, none⟩
  | .recv => ⟨s.emit, none, true, none, none⟩
  | .drv side => ⟨s.emit, none, false, some (side, s.speedOf side), none⟩
  | .dispLabel => ⟨s.emit, none, false, none, some (s.cfg.labelRow, labelText s.lbl)⟩
  | .dispValues => ⟨s.emit, none, false, none, some (s.cfg.valueRow, valueText s.cfg s.cv)⟩
  | .emit _ => ⟨s.emit, none, false, none, none⟩
  | .wait => ⟨s.emit, none, false, none, none⟩
  | .canc => ⟨s.emit, none, false, none, none⟩
  | .clsf => ⟨s.emit, none, false, none, none⟩
  | .map => ⟨s.emit, none, false, none, none⟩
  | .loop => ⟨s.emit, none, false, none, none⟩

/-- The ports in a state: `emit_en` carries `EMIT` at all times (10_state.md R29); while `rst` is asserted no transaction is
begun (70_reset_and_hazards.md R231). -/
def pins (s : State) : Pins :=
  if s.rstLevel then ⟨s.emit, none, false, none, none⟩
  else
    match decode s.fetch with
    | .op i => pinsOf s i
    | .reserved _ => ⟨s.emit, none, false, none, none⟩

/-- `adc_ch`, 3 bits. -/
def adcChBits (ch : Channel) : BitVec 3 := BitVec.ofNat 3 ch.val

/-- `disp_len`, 5 bits: the number of characters. -/
def dispLen (text : Text) : BitVec 5 := BitVec.ofNat 5 text.length

/-- `disp_text`: the characters as bytes, character 0 first (30_encoding.md R101, log 16). -/
def dispBytes (text : Text) : List Byte := text.map asciiByte

/-- The speed the motor driver was last given for a side, if any: it "keeps applying the last value it received until it
receives another" (60_exceptions.md R213). -/
def lastSpeed (side : Side) (events : List Event) : Option Byte :=
  events.foldl (fun v e =>
    match e with
    | .motWrite sd w => if sd = side then some w else v
    | .emitSet _ => v
    | .adcRead _ _ => v
    | .serRecv _ => v
    | .dispWrite _ _ => v) none

/-- The line last written to a display row, if any (10_state.md R35 (d)). -/
def lastLine (row : Nat) (events : List Event) : Option Text :=
  events.foldl (fun t e =>
    match e with
    | .dispWrite r text => if r = row then some text else t
    | .emitSet _ => t
    | .adcRead _ _ => t
    | .serRecv _ => t
    | .motWrite _ _ => t) none

end Sys2Proof.Machine
end

