-- ==== Sys2Proof/Machine/Cycle.lean ====
section
/-! DEFINITION. One control cycle as a function from boundary to boundary (10_state.md R38, 43_display_loop.md R185): the
functional presentation the spec calls equivalent to running steps 0..22. -/

namespace Sys2Proof.Machine

/-- The retained triple (10_state.md R33). -/
structure Retained where
  ls : Byte
  rs : Byte
  lbl : Label
  deriving DecidableEq, Repr

/-- What the environment answers in one cycle: ten readings and one command (43_display_loop.md R185). -/
structure CycleInput where
  on : Bank5
  off : Bank5
  base : Nat
  deriving DecidableEq, Repr

/-- The retained triple of a state. -/
def State.retained (s : State) : Retained := ⟨s.ls, s.rs, s.lbl⟩

/-- The cancelled values of a cycle (40_acquisition.md R123). -/
def CycleInput.cancelled (x : CycleInput) : Bank5 := cancelAll x.on x.off

/-- The category of a cycle (41_classifier.md R142, R146). -/
def CycleInput.category (c : Config) (x : CycleInput) : Category := classify (patternOf c x.cancelled)

/-- The triple after a cycle (42_drive_mapper.md R160, R164). -/
def cycleTriple (c : Config) (r : Retained) (x : CycleInput) : Retained :=
  match speedRule c x.base (x.category c) with
  | some (l, rt, lab) => ⟨sat8 c l, sat8 c rt, lab⟩
  | none => r

/-- The twelve acquisition events of a cycle (20_memory.md R70). -/
def acquisitionEvents (x : CycleInput) : List Event :=
  [.emitSet true] ++ (List.finRange 5).map (fun ch => .adcRead ch x.on[ch]) ++
  [.emitSet false] ++ (List.finRange 5).map (fun ch => .adcRead ch x.off[ch])

/-- The 17 events of a cycle that ends with triple `r` (43_display_loop.md R185; 30_encoding.md R105 for the place of
the receive). -/
def cycleEvents (c : Config) (r : Retained) (x : CycleInput) : List Event :=
  (match c.recvPos with
   | .preClassify => acquisitionEvents x ++ [.serRecv x.base]
   | .cycleStart => [.serRecv x.base] ++ acquisitionEvents x) ++
  [.motWrite .left r.ls, .motWrite .right r.rs,
   .dispWrite c.labelRow (labelText r.lbl), .dispWrite c.valueRow (valueText c x.cancelled)]

/-- One control cycle (10_state.md R38). -/
def cycle (c : Config) (r : Retained) (x : CycleInput) : Retained × List Event :=
  (cycleTriple c r x, cycleEvents c (cycleTriple c r x) x)

end Sys2Proof.Machine
end

