-- ==== Sys2Proof/Safety.lean ====
section
/-! DEFINITION. What holds of a block that runs its own step ROM: the terms the claims are stated in. -/

namespace Sys2Proof.Machine

/-- Operation `i` has been performed in the current cycle: it stands in the ROM before `PH`. -/
def performed (s : State) (i : Instr) : Bool := (s.rom.toList.take s.ph.val).any fun w => decode w == .op i

/-- The event operation `i` records, told from the registers it wrote or read (20_memory.md R75). -/
def eventOf (s : State) : Instr → Option Event
  | .emit b => some (.emitSet b)
  | .samp .on ch => some (.adcRead ch s.on[ch])
  | .samp .off ch => some (.adcRead ch s.off[ch])
  | .recv => some (.serRecv s.base)
  | .drv side => some (.motWrite side (s.speedOf side))
  | .dispLabel => some (.dispWrite s.cfg.labelRow (labelText s.lbl))
  | .dispValues => some (.dispWrite s.cfg.valueRow (valueText s.cfg s.cv))
  | .wait => none
  | .canc => none
  | .clsf => none
  | .map => none
  | .loop => none

/-- The events of the current cycle so far, in step order (20_memory.md R69, R75). -/
def cycleSoFar (s : State) : List Event :=
  (s.rom.toList.take s.ph.val).filterMap fun w => (decode w).instr?.bind (eventOf s)

/-- The step does not stop before it performs its operation: the configuration has a meaning (00_scope.md R7,
60_exceptions.md R219) and the ROM holds no reserved word (30_encoding.md R94). -/
def Runnable (s : State) : Prop :=
  s.cfg.wf = true ∧ s.cfg.timeoutMode = false ∧ ∀ k : Phase, ∃ i, decode s.rom[k] = .op i

/-- Operation `i` performed in `s` is a blocking transaction its collaborator does not answer at this attempt
(43_display_loop.md R184: "its transaction has not completed"). -/
def Holds (s : State) : Instr → Prop
  | .samp _ _ => s.adcAnswer = none
  | .recv => s.serAnswer = none
  | .emit _ => False
  | .wait => False
  | .canc => False
  | .clsf => False
  | .map => False
  | .drv _ => False
  | .dispLabel => False
  | .dispValues => False
  | .loop => False

/-- The invariant of a block that runs its own step ROM. -/
structure Inv (s : State) : Prop where
  /-- The configuration is one the rules hold for (00_scope.md R7, 60_exceptions.md R219). -/
  config : s.cfg.wf = true ∧ s.cfg.timeoutMode = false
  /-- The ROM holds the step sequence of `RECV_POS` (30_encoding.md R93, R105). -/
  rom : s.rom = stepRom s.cfg.recvPos
  /-- The emitter is lit exactly between `EMIT 1` and `EMIT 0` of the cycle (20_memory.md R70, R236). -/
  emitter : s.emit = (performed s (.emit true) && !performed s (.emit false))
  /-- `BASE` is a `BASE_W`-bit number (10_state.md R24). -/
  command : s.base < 2 ^ s.cfg.baseW
  /-- After CANC the values are those of this cycle's readings (20_memory.md R70). -/
  cancelled : performed s .canc = true → s.cv = cancelAll s.on s.off
  /-- After CLSF the flags are those of this cycle's values (41_classifier.md R146). -/
  classified : performed s .clsf = true → s.pat = patternOf s.cfg s.cv ∧ s.cat = classify s.pat
  /-- After MAP of a cycle that matched, the Drive Output and the label are this cycle's (42_drive_mapper.md R160). -/
  mapped : performed s .map = true → ∀ l r lab, speedRule s.cfg s.base s.cat = some (l, r, lab) →
    s.ls = sat8 s.cfg l ∧ s.rs = sat8 s.cfg r ∧ s.lbl = lab
  /-- The history ends with exactly the events of the steps this cycle has completed, in step order, with the values the
  registers hold (20_memory.md R69, R70, R75). -/
  history : ∃ past, s.events = past ++ cycleSoFar s

end Sys2Proof.Machine
end

