-- ==== Sys2Proof/Certificates/Slice0/Obligations.lean ====
section
/-! DEFINITION. The statements for the provers. Each says which rule of spec/ it formalises. -/

open Sys2Proof Sys2Proof.Machine

/-! ### Reset -/

/-- 10_state.md R36 (the values are the spec's decision D11): every register after reset, and for a block with other
constants the reset triple of 93_implementation_defined.md U1. -/
def Obligations.ResetRegisterValues : Prop :=
  (∀ ch : Channel, State.reset.on[ch] = 0 ∧ State.reset.off[ch] = 0 ∧ State.reset.cv[ch] = 0) ∧
  State.reset.base = 0 ∧ State.reset.pat = 0 ∧ catCode State.reset.cat = 0 ∧ State.reset.ls = 0 ∧ State.reset.rs = 0 ∧
  lblCode State.reset.lbl = 0 ∧ State.reset.emit = false ∧ State.reset.ph = 0 ∧ State.reset.phBits = 0 ∧
  ∀ c : Config, (State.resetOf c).ls = c.ls0 ∧ (State.resetOf c).rs = c.rs0 ∧ (State.resetOf c).lbl = c.lbl0 ∧
    (State.resetOf c).cfg = c

/-- 70_reset_and_hazards.md R231: while `rst` is asserted no step is performed, a held transaction is abandoned without an
event, no collaborator is called, and every register has its reset value. That `rst` is taken once a step, and that the
environment's inputs stay, is the model's (log 3). -/
def Obligations.AssertedRstResetsEveryRegister : Prop :=
  ∀ (s : State) (rest : List Bool), s.cfg.wf = true → s.cfg.timeoutMode = false → s.rstIn = true :: rest →
    step s = .next { s with
      on := Vector.replicate 5 0, off := Vector.replicate 5 0, cv := Vector.replicate 5 0, base := 0, pat := 0,
      cat := .none, ls := s.cfg.ls0, rs := s.cfg.rs0, lbl := s.cfg.lbl0, emit := false, ph := 0, rstIn := rest }

/-! ### Fetch, decode, perform -/

/-- 43_display_loop.md R184: a step fetches `ROM[PH]`, decodes it and performs the operation. Around the operation the
model takes one level of `rst` (log 3). -/
def Obligations.StepPerformsTheDecodedOperation : Prop :=
  ∀ (s : State) (i : Instr), Runnable s → s.rstLevel = false → decode s.rom[s.ph] = .op i →
    step s = exec i { s with rstIn := s.rstIn.tail }

/-- 43_display_loop.md R184, how `PH` advances: it stays on a hold, LOOP sets it to 0, every other operation adds 1. -/
def Obligations.StepAdvancesPhase : Prop :=
  ∀ (s t : State) (i : Instr), s.rstLevel = false → decode s.rom[s.ph] = .op i → step s = .next t →
    (Holds s i → t.ph = s.ph) ∧
    (i = .loop → t.ph.val = 0) ∧
    (¬ Holds s i → i ≠ .loop → t.ph.val = s.ph.val + 1)

/-- 30_encoding.md R94: which words are reserved, how many are legal, and that the machine refuses a ROM holding one. -/
def Obligations.ReservedWordsAreRefused : Prop :=
  (∀ w : Byte, (∃ why, decode w = .reserved why) ↔
    w.toNat / 16 ∈ [0, 10, 11, 12, 13, 14] ∨
    (w.toNat / 16 = 3 ∧ 5 ≤ w.toNat % 8) ∨
    (w.toNat / 16 ∈ [2, 4, 5, 6, 7, 15] ∧ w.toNat / 8 % 2 = 1) ∨
    (w.toNat / 16 ∈ [1, 2, 4, 5, 6, 7, 8, 9, 15] ∧ w.toNat % 8 ≠ 0)) ∧
  ((List.range 256).filter fun n => legalWord (BitVec.ofNat 8 n)).length = 22 ∧
  (∀ rp : RecvPos, ∀ k : Phase, ∃ i, decode (stepRom rp)[k] = .op i) ∧
  ∀ (s : State) (k : Phase) (why : ReservedWhy), s.cfg.wf = true → s.cfg.timeoutMode = false → s.rstLevel = false →
    decode s.rom[k] = .reserved why →
    ∃ j : Phase, ∃ why', decode s.rom[j] = .reserved why' ∧ step s = .refused (.reservedWord s.rom[j])

/-- 60_exceptions.md R219: a configuration that asks for the Timeout mode is refused. That one outside the constraints of
00_scope.md R7 is refused is the model's (DEDUCED, log 9): R7 says only that the rules hold as written within them. That
both refusals come while `rst` is high too, and that the Timeout mode is named before a broken constraint, is the model's
as well (DESIGN CHOICE, log 8). -/
def Obligations.ConfigurationsWithoutMeaningAreRefused : Prop :=
  (∀ s : State, s.cfg.timeoutMode = true → step s = .refused .timeoutMode) ∧
  ∀ s : State, s.cfg.timeoutMode = false →
    (s.cfg.rdMax < s.cfg.thr ∨ s.cfg.turnDiv = 0 ∨ s.cfg.spdMin ≠ 0 ∨ s.cfg.spdMax ≠ 2 ^ s.cfg.spdW - 1 ∨ s.cfg.baseW = 0) →
    step s = .refused .illFormedConfig

/-- 10_state.md R30: `PH` goes from 22 to 0 by LOOP only. That any other operation that would complete at step 22 is
refused is the model's reading (DEDUCED, log 7). -/
def Obligations.OnlyLoopLeavesTheLastStep : Prop :=
  ∀ (s : State) (i : Instr), s.ph.val = 22 → i ≠ .loop → ¬ Holds s i → exec i s = .refused .phaseOverrun

/-! ### Encodings -/

/-- 30_encoding.md R92, R95 and 95_test_vectors.md 2.7: words written out from the spec and what they stand for. -/
def Obligations.WrittenWordsDecode : Prop :=
  decode 0b00011000 = .op (.emit true) ∧ decode 0b00010000 = .op (.emit false) ∧ decode 0b00100000 = .op .wait ∧
  decode 0b00111010 = .op (.samp .on 2) ∧ decode 0b00110100 = .op (.samp .off 4) ∧ decode 0b01000000 = .op .canc ∧
  decode 0b01010000 = .op .recv ∧ decode 0b01100000 = .op .clsf ∧ decode 0b01110000 = .op .map ∧
  decode 0b10000000 = .op (.drv .left) ∧ decode 0b10001000 = .op (.drv .right) ∧ decode 0b10010000 = .op .dispLabel ∧
  decode 0b10011000 = .op .dispValues ∧ decode 0b11110000 = .op .loop

/-- 30_encoding.md R106: decoding an encoded operation gives it back, for every operation and operand. -/
def Obligations.DecodeOfEncode : Prop := ∀ i : Instr, decode (encode i) = .op i

/-- 30_encoding.md R106: `encode(decode(w)) = w` for every legal word, so decoding is injective on legal words. -/
def Obligations.EncodeOfDecode : Prop :=
  (∀ (w : Byte) (i : Instr), decode w = .op i → encode i = w) ∧
  ∀ (w w' : Byte) (i : Instr), decode w = .op i → decode w' = .op i → w = w'

/-- 30_encoding.md R93 and R105 (orders by the spec's decisions D5, D6, D7, D16): the operations of the two step
sequences, step 0 first, and the sequence after reset. -/
def Obligations.StepSequencesAreAsListed : Prop :=
  (stepRom .preClassify).toList.map decode =
    ([.emit true, .wait, .samp .on 0, .samp .on 1, .samp .on 2, .samp .on 3, .samp .on 4, .emit false, .wait,
      .samp .off 0, .samp .off 1, .samp .off 2, .samp .off 3, .samp .off 4, .canc, .recv, .clsf, .map, .drv .left,
      .drv .right, .dispLabel, .dispValues, .loop] : List Instr).map .op ∧
  (stepRom .cycleStart).toList.map decode =
    ([.recv, .emit true, .wait, .samp .on 0, .samp .on 1, .samp .on 2, .samp .on 3, .samp .on 4, .emit false, .wait,
      .samp .off 0, .samp .off 1, .samp .off 2, .samp .off 3, .samp .off 4, .canc, .clsf, .map, .drv .left,
      .drv .right, .dispLabel, .dispValues, .loop] : List Instr).map .op ∧
  ∀ c : Config, (State.resetOf c).rom = stepRom c.recvPos

/-! ### The Sensor Acquisition Unit -/

/-- 40_acquisition.md R120: EMIT writes the output, records EmitSet and advances; nothing else changes. -/
def Obligations.EmitDrivesTheEmitter : Prop :=
  decode 0x18 = .op (.emit true) ∧ decode 0x10 = .op (.emit false) ∧
  ∀ (b : Bool) (s : State) (p : Phase), p.val = s.ph.val + 1 →
    exec (.emit b) s = .next { s with emit := b, events := s.events ++ [.emitSet b], ph := p }

/-- 40_acquisition.md R121 (its model line, decision D28): WAIT only advances `PH`. -/
def Obligations.WaitOnlyAdvances : Prop :=
  decode 0x20 = .op .wait ∧
  ∀ (s : State) (p : Phase), p.val = s.ph.val + 1 → exec .wait s = .next { s with ph := p }

/-- 40_acquisition.md R122: an answered SAMP writes the reading to the bank and channel its word names, whatever the level
of the emitter, records AdcRead and advances; the other nine reading registers and all else stay. The ADC's own inputs
(`adcIn`, `adcPolls`) move on by one attempt: these two clauses are the model's (DESIGN CHOICE, log 1, log 2). -/
def Obligations.SampTakesTheReading : Prop :=
  (∀ ch : Channel, decode (BitVec.ofNat 8 (0x38 + ch.val)) = .op (.samp .on ch) ∧
    decode (BitVec.ofNat 8 (0x30 + ch.val)) = .op (.samp .off ch)) ∧
  ∀ (ch : Channel) (v : Byte) (s : State) (p : Phase), p.val = s.ph.val + 1 → s.adcAnswer = some v →
    (exec (.samp .on ch) s = .next { s with
      on := s.on.set ch v, adcIn := s.adcIn.tail, adcPolls := s.adcPolls + 1,
      events := s.events ++ [.adcRead ch v], ph := p }) ∧
    (exec (.samp .off ch) s = .next { s with
      off := s.off.set ch v, adcIn := s.adcIn.tail, adcPolls := s.adcPolls + 1,
      events := s.events ++ [.adcRead ch v], ph := p })

/-- 40_acquisition.md R128: for as long as the ADC driver does not answer, the block stays at its SAMP step: after any
number `n` of unanswered attempts no register has changed, `PH` and `EMIT` among them, and no event is recorded. -/
def Obligations.UnansweredSampHolds : Prop :=
  ∀ (n : Nat) (s : State) (bank : Bank) (ch : Channel) (rest : List (Option Byte)),
    Runnable s → s.rstIn = [] → decode s.rom[s.ph] = .op (.samp bank ch) →
    s.adcIn = List.replicate n none ++ rest →
    core.run n s = .next { s with adcIn := rest, adcPolls := s.adcPolls + n }

/-- 40_acquisition.md R123, R125: CANC writes `max(ON[i] - OFF[i], 0)`, computed on integers, to each `CV[i]`, and
nothing else but `PH`. -/
def Obligations.CancComputesTheFiveDifferences : Prop :=
  decode 0x40 = .op .canc ∧
  (∀ on off : Byte, ((csub on off).toNat : Int) = max ((on.toNat : Int) - (off.toNat : Int)) 0) ∧
  ∀ (s : State) (p : Phase), p.val = s.ph.val + 1 →
    ∃ cv : Bank5, exec .canc s = .next { s with cv := cv, ph := p } ∧
      ∀ i : Channel, (cv[i].toNat : Int) = max ((s.on[i].toNat : Int) - (s.off[i].toNat : Int)) 0

/-- 40_acquisition.md R126: the floor-clamp property, which is the law the source states. The range (and the difference
where `OFF` is not the larger), derived from R125, and the clause on equal readings, derived from R125 and
41_classifier.md R141, are the spec's own inferences. -/
def Obligations.CancelledValueRange : Prop :=
  (∀ on off : Byte, (csub on off).toNat ≤ on.toNat ∧ on.toNat ≤ 255) ∧
  (∀ on off : Byte, on.toNat ≤ off.toNat → csub on off = 0) ∧
  (∀ on off : Byte, off.toNat ≤ on.toNat → (csub on off).toNat + off.toNat = on.toNat) ∧
  ∀ (c : Config) (v : Byte), 0 < c.thr → below c (csub v v) = true

/-! ### The classifier -/

/-- 41_classifier.md R140: an answered RECV puts the `BASE_W`-bit command into `BASE`, records SerRecv and advances; an
unanswered one holds and changes no register. The serial inputs move on by one attempt (log 1, log 2, log 12). -/
def Obligations.RecvTakesTheCommandOrHolds : Prop :=
  decode 0x50 = .op .recv ∧
  (∀ (s : State) (v : Nat), s.serAnswer = some v → v < 2 ^ s.cfg.baseW) ∧
  (∀ (s : State) (p : Phase) (v : Nat), p.val = s.ph.val + 1 → s.serAnswer = some v →
    exec .recv s = .next { s with
      base := v, serIn := s.serIn.tail, serPolls := s.serPolls + 1, events := s.events ++ [.serRecv v], ph := p }) ∧
  ∀ s : State, s.serAnswer = none →
    exec .recv s = .next { s with serIn := s.serIn.tail, serPolls := s.serPolls + 1 }

/-- 41_classifier.md R140 with 60_exceptions.md R202: after any number of unanswered attempts the block still stands at its
RECV step with every register unchanged and no event recorded. -/
def Obligations.UnansweredRecvHolds : Prop :=
  ∀ (n : Nat) (s : State) (rest : List (Option Nat)),
    Runnable s → s.rstIn = [] → decode s.rom[s.ph] = .op .recv →
    s.serIn = List.replicate n none ++ rest →
    core.run n s = .next { s with serIn := rest, serPolls := s.serPolls + n }

/-- 41_classifier.md R142, R143: CLSF sets bit `4 - i` of `PAT` to the unsigned comparison of `CV[i]` with THR and `CAT` to
the first matching row, and changes nothing else but `PH`. The place and the polarity of a bit are the spec's decision D8. -/
def Obligations.ClsfComparesAndClassifies : Prop :=
  decode 0x60 = .op .clsf ∧
  ∀ (s : State) (p : Phase), p.val = s.ph.val + 1 →
    ∃ (pat : BitVec 5) (cat : Category), exec .clsf s = .next { s with pat := pat, cat := cat, ph := p } ∧
      (∀ i : Channel, pat.getLsbD (4 - i.val) = decide (s.cv[i].toNat < s.cfg.thr)) ∧
      cat = (if pat = 0b00100 then .fwdNarrow else if pat = 0b01110 then .fwdWide else if pat = 0b10000 then .left
        else if pat = 0b00001 then .right else if pat = 0b00000 then .stop else .none)

/-- 41_classifier.md R144: the category code of each of the 32 patterns. -/
def Obligations.CategoryOfEveryPattern : Prop :=
  (List.range 32).map (fun p => (catCode (classify (BitVec.ofNat 5 p))).toNat) =
    [5, 4, 0, 0, 1, 0, 0, 0, 0, 0, 0, 0, 0, 0, 2, 0, 3, 0, 0, 0, 0, 0, 0, 0, 0, 0, 0, 0, 0, 0, 0, 0]

/-- 41_classifier.md R146: the result of CLSF depends on nothing but the five comparisons. -/
def Obligations.ClassifierSeesComparisonsOnly : Prop :=
  ∀ s s' t t' : State, (∀ i : Channel, s.cv[i].toNat < s.cfg.thr ↔ s'.cv[i].toNat < s'.cfg.thr) →
    exec .clsf s = .next t → exec .clsf s' = .next t' → t.pat = t'.pat ∧ t.cat = t'.cat

/-! ### The drive mapper -/

/-- 42_drive_mapper.md R160, R161: MAP on every category: the speeds, saturated to 0..255, and the label on a match; no
assignment otherwise. -/
def Obligations.MapWritesTheDriveOutput : Prop :=
  decode 0x70 = .op .map ∧
  ∀ (s : State) (p : Phase), s.cfg.wf = true → p.val = s.ph.val + 1 →
    (s.cat = .fwdNarrow ∨ s.cat = .fwdWide → exec .map s = .next { s with
      ls := BitVec.ofNat 8 (min s.base 255), rs := BitVec.ofNat 8 (min s.base 255), lbl := .forward, ph := p }) ∧
    (s.cat = .left → exec .map s = .next { s with
      ls := BitVec.ofNat 8 (min (s.base / s.cfg.turnDiv) 255), rs := BitVec.ofNat 8 (min s.base 255),
      lbl := .turnLeft, ph := p }) ∧
    (s.cat = .right → exec .map s = .next { s with
      ls := BitVec.ofNat 8 (min s.base 255), rs := BitVec.ofNat 8 (min (s.base / s.cfg.turnDiv) 255),
      lbl := .turnRight, ph := p }) ∧
    (s.cat = .stop → exec .map s = .next { s with ls := 0, rs := 0, lbl := .stop, ph := p }) ∧
    (s.cat = .none → exec .map s = .next { s with ph := p })

/-- 42_drive_mapper.md R162: the turn division is the quotient with the remainder discarded, with the source's values. -/
def Obligations.TurnDivisionDiscardsTheRemainder : Prop :=
  (∀ (c : Config) (base : Nat), c.wf = true →
    c.turnDiv * turnSpeed c base ≤ base ∧ base < c.turnDiv * turnSpeed c base + c.turnDiv) ∧
  [0, 5, 6, 11, 90, 100, 120, 255, 65535].map (turnSpeed Config.reference) = [0, 0, 1, 1, 15, 16, 20, 42, 10922]

/-- 42_drive_mapper.md R163: the clamp law over all integers, both bounds, and idempotence. -/
def Obligations.SaturationLaw : Prop :=
  ∀ (c : Config) (S : Int), c.wf = true →
    0 ≤ ((sat8 c S).toNat : Int) ∧ ((sat8 c S).toNat : Int) ≤ 255 ∧
    (0 ≤ S → S ≤ 255 → ((sat8 c S).toNat : Int) = S) ∧
    (S < 0 → sat8 c S = 0) ∧ (255 < S → sat8 c S = 255) ∧
    sat8 c ((sat8 c S).toNat : Int) = sat8 c S

/-- 42_drive_mapper.md R164: over any number of cycles whose patterns match no row, whatever commands they receive, the
retained triple stays what it was, on the machine's cycle function (10_state.md R38). -/
def Obligations.UnmatchedCyclesRetainTheTriple : Prop :=
  ∀ (c : Config) (r : Retained) (xs : List CycleInput), (∀ x ∈ xs, x.category c = .none) →
    xs.foldl (cycleTriple c) r = r

/-- 42_drive_mapper.md R167: the same five comparisons and the same command twice in a row give the same drive output. -/
def Obligations.RepeatedCycleGivesTheSameOutput : Prop :=
  ∀ (c : Config) (r : Retained) (x x' : CycleInput),
    (∀ i : Channel, x.cancelled[i].toNat < c.thr ↔ x'.cancelled[i].toNat < c.thr) → x.base = x'.base →
    cycleTriple c (cycleTriple c r x) x' = cycleTriple c r x

/-- 42_drive_mapper.md R166: DRV hands `LS` or `RS` to the motor driver and changes no register but `PH`. -/
def Obligations.DrvHandsOverOneSpeed : Prop :=
  decode 0x80 = .op (.drv .left) ∧ decode 0x88 = .op (.drv .right) ∧
  ∀ (s : State) (p : Phase), p.val = s.ph.val + 1 →
    exec (.drv .left) s = .next { s with events := s.events ++ [.motWrite .left s.ls], ph := p } ∧
    exec (.drv .right) s = .next { s with events := s.events ++ [.motWrite .right s.rs], ph := p }

/-! ### The display and the loop -/

/-- 43_display_loop.md R180: DISP LABEL writes the text of `LBL` to the label row and changes no register but `PH`. The
strings other than "Forward" are the spec's decision D10. -/
def Obligations.DispLabelWritesTheLabelRow : Prop :=
  decode 0x90 = .op .dispLabel ∧
  ∀ (s : State) (p : Phase), p.val = s.ph.val + 1 →
    exec .dispLabel s = .next { s with
      events := s.events ++ [.dispWrite s.cfg.labelRow
        (match s.lbl with
         | .none => "".toList
         | .forward => "Forward".toList
         | .turnLeft => "Turn Left".toList
         | .turnRight => "Turn Right".toList
         | .stop => "Stop".toList)], ph := p }

/-- 43_display_loop.md R181: DISP VALUES writes the five formatted values, without separators, to the value row and changes
no register but `PH`; in the reference block the widths are 3, 3, 3, 3, 2. -/
def Obligations.DispValuesWritesTheValueRow : Prop :=
  decode 0x98 = .op .dispValues ∧ Config.reference.dispFw = #v[3, 3, 3, 3, 2] ∧
  ∀ (s : State) (p : Phase), p.val = s.ph.val + 1 →
    exec .dispValues s = .next { s with
      events := s.events ++ [.dispWrite s.cfg.valueRow
        ((List.finRange 5).flatMap fun i : Channel => fmt s.cfg.dispOverflow s.cv[i] s.cfg.dispFw[i])], ph := p }

/-- 43_display_loop.md R182 (`expand`): a field is spaces followed by decimal digits without leading zeros that read back as
the value, `w` characters long unless the digits alone are longer. -/
def Obligations.FieldIsRightJustifiedDecimal : Prop :=
  ∀ (v : Byte) (w : Nat), ∃ d : List Char,
    fmt .expand v w = List.replicate (w - d.length) ' ' ++ d ∧
    (∀ ch ∈ d, 48 ≤ ch.toNat ∧ ch.toNat ≤ 57) ∧ d ≠ [] ∧ (d.head? = some '0' → d = ['0']) ∧
    d.foldl (fun n ch => 10 * n + (ch.toNat - 48)) 0 = v.toNat

/-- 43_display_loop.md R181 with 60_exceptions.md R215: every line the block writes fits the display: 14 or 15 characters on
the value row of the reference block, at most `DISP_COLS` in every well-formed one (log 9). -/
def Obligations.DisplayLinesFit : Prop :=
  (∀ cv : Bank5, (valueText Config.reference cv).length = if cv[4].toNat ≤ 99 then 14 else 15) ∧
  ∀ (c : Config) (cv : Bank5) (l : Label), c.wf = true →
    (valueText c cv).length ≤ c.dispCols ∧ (labelText l).length ≤ c.dispCols

/-- 43_display_loop.md R183: LOOP sets `PH` to 0 and changes nothing else, from every step. -/
def Obligations.LoopClosesTheCycle : Prop :=
  decode 0xF0 = .op .loop ∧ ∀ s : State, exec .loop s = .next { s with ph := 0 }

/-! ### The whole machine -/

/-- 10_state.md R20 to R29, the "written by" column: each register is written by the operations named for it and by no
other; the ROM, the constants and the environment's other inputs by none. -/
def Obligations.EachRegisterHasItsWriters : Prop :=
  ∀ (i : Instr) (s t : State), exec i s = .next t →
    (t.on ≠ s.on → ∃ ch, i = .samp .on ch) ∧
    (t.off ≠ s.off → ∃ ch, i = .samp .off ch) ∧
    (t.cv ≠ s.cv → i = .canc) ∧
    (t.base ≠ s.base → i = .recv) ∧
    (t.pat ≠ s.pat ∨ t.cat ≠ s.cat → i = .clsf) ∧
    (t.ls ≠ s.ls ∨ t.rs ≠ s.rs ∨ t.lbl ≠ s.lbl → i = .map ∧ s.cat ≠ .none) ∧
    (t.emit ≠ s.emit → ∃ b, i = .emit b) ∧
    (t.adcIn ≠ s.adcIn ∨ t.adcPolls ≠ s.adcPolls → ∃ bank ch, i = .samp bank ch) ∧
    (t.serIn ≠ s.serIn ∨ t.serPolls ≠ s.serPolls → i = .recv) ∧
    t.rom = s.rom ∧ t.cfg = s.cfg ∧ t.rstIn = s.rstIn

/-- 20_memory.md R74 and 10_state.md R31: no step writes the step ROM or a constant. -/
def Obligations.StepKeepsRomAndConstants : Prop :=
  ∀ s t : State, step s = .next t → t.rom = s.rom ∧ t.cfg = s.cfg

/-- 20_memory.md R75: which event each operation records, at completion and with what it carries; a step that holds, and
WAIT, CANC, CLSF, MAP and LOOP, record nothing. -/
def Obligations.EachOperationRecordsItsEvent : Prop :=
  ∀ (i : Instr) (s t : State), exec i s = .next t →
    (Holds s i → t.events = s.events) ∧
    (∀ b, i = .emit b → t.events = s.events ++ [.emitSet b]) ∧
    (∀ bank ch v, i = .samp bank ch → s.adcAnswer = some v → t.events = s.events ++ [.adcRead ch v]) ∧
    (∀ v, i = .recv → s.serAnswer = some v → t.events = s.events ++ [.serRecv v]) ∧
    (i = .drv .left → t.events = s.events ++ [.motWrite .left s.ls]) ∧
    (i = .drv .right → t.events = s.events ++ [.motWrite .right s.rs]) ∧
    (i = .dispLabel → t.events = s.events ++ [.dispWrite s.cfg.labelRow (labelText s.lbl)]) ∧
    (i = .dispValues → t.events = s.events ++ [.dispWrite s.cfg.valueRow (valueText s.cfg s.cv)]) ∧
    (i ∈ [.wait, .canc, .clsf, .map, .loop] → t.events = s.events)

/-- 60_exceptions.md R200: no operation has an exceptional outcome; each completes or holds, at every step from which `PH` can
go on, and no step faults. -/
def Obligations.EveryOperationCompletesOrHolds : Prop :=
  (∀ (i : Instr) (s : State), s.ph.val < 22 ∨ i = .loop ∨ Holds s i → ∃ t, exec i s = .next t) ∧
  ∀ (s : State) (f : Fault), step s ≠ .fault f

/-- The invariant holds after reset, of the reference block and of every well-formed one. -/
def Obligations.ResetMeetsTheInvariant : Prop :=
  Inv State.reset ∧ ∀ c : Config, c.wf = true → c.timeoutMode = false → Inv (State.resetOf c)

/-- Every step keeps the invariant (20_memory.md R69, R70, R75; 41_classifier.md R146; 42_drive_mapper.md R160;
70_reset_and_hazards.md R235, R236): emitter level by phase, values, flags and outputs of the current cycle, and the event
history; a step under an asserted `rst` included. -/
def Obligations.StepKeepsTheInvariant : Prop :=
  ∀ s t : State, Inv s → step s = .next t → Inv t

/-- 43_display_loop.md R186 with 30_encoding.md R94: a block that meets the invariant never stops: it takes any number of
steps, and meets the invariant after each. -/
def Obligations.TheBlockRunsForEver : Prop :=
  ∀ (n : Nat) (s : State), Inv s → ∃ t, core.run n s = .next t ∧ Inv t

/-- 10_state.md R38 with 43_display_loop.md R185: for both places of the receive, running steps 0..22 from a cycle boundary
with every transaction answered is the cycle function: the same triple, the same 17 events in order, the cycle boundary
again, and nothing but the cycle-local registers otherwise changed. Cycles with a hold in them, and cycles in which `rst`
is asserted (the empty `rstIn`, log 3), are left out. -/
def Obligations.CycleIsTheCycleFunction : Prop :=
  ∀ (s : State) (x : CycleInput) (adcRest : List (Option Byte)) (serRest : List (Option Nat)),
    s.cfg.wf = true → s.cfg.timeoutMode = false → s.rom = stepRom s.cfg.recvPos → s.rstIn = [] → s.ph = 0 →
    s.adcIn = (x.on.toList ++ x.off.toList).map some ++ adcRest →
    s.serIn = some x.base :: serRest → x.base < 2 ^ s.cfg.baseW →
    core.run 23 s = .next { s with
      on := x.on, off := x.off, cv := x.cancelled, base := x.base,
      pat := patternOf s.cfg x.cancelled, cat := x.category s.cfg,
      ls := (cycle s.cfg s.retained x).1.ls, rs := (cycle s.cfg s.retained x).1.rs,
      lbl := (cycle s.cfg s.retained x).1.lbl, emit := false, ph := 0,
      adcIn := adcRest, adcPolls := s.adcPolls + 10, serIn := serRest, serPolls := s.serPolls + 1,
      events := s.events ++ (cycle s.cfg s.retained x).2 } ∧
    (cycle s.cfg s.retained x).2.length = 17

/-- 30_encoding.md R105: no value depends on the place of the receive; only the order of the one SerRecv event relative to the
others differs. -/
def Obligations.ReceivePositionMovesOneEventOnly : Prop :=
  ∀ (c : Config) (r : Retained) (x : CycleInput),
    (cycle { c with recvPos := .preClassify } r x).1 = (cycle { c with recvPos := .cycleStart } r x).1 ∧
    (cycle { c with recvPos := .preClassify } r x).2.erase (.serRecv x.base) =
      (cycle { c with recvPos := .cycleStart } r x).2.erase (.serRecv x.base) ∧
    (cycle { c with recvPos := .preClassify } r x).2[12]? = some (.serRecv x.base) ∧
    (cycle { c with recvPos := .cycleStart } r x).2[0]? = some (.serRecv x.base)

/-- 70_reset_and_hazards.md R236 and 20_memory.md R70: whenever the block stands at a SAMP step the emitter is lit exactly for
the ON bank, and it is dark at the RECV step and at every cycle boundary. -/
def Obligations.EmitterLevelAtBlockingSteps : Prop :=
  ∀ s : State, Inv s →
    (∀ bank ch, decode s.rom[s.ph] = .op (.samp bank ch) → (s.emit = true ↔ bank = .on)) ∧
    (decode s.rom[s.ph] = .op .recv → s.emit = false) ∧
    (s.ph = 0 → s.emit = false)

/-- 10_state.md R28 and 42_drive_mapper.md R169: the label is cosmetic: changing `LBL` before an operation changes no register
but `LBL` and no event but a display line. -/
def Obligations.LabelCarriesNoControl : Prop :=
  ∀ (i : Instr) (s t : State) (l : Label), exec i s = .next t →
    ∃ (l' : Label) (ev : List Event), exec i { s with lbl := l } = .next { t with lbl := l', events := ev } ∧
      (ev = t.events ∨ i = .dispLabel ∧ ev = s.events ++ [.dispWrite s.cfg.labelRow (labelText l)])

/-- 20_memory.md R61 and 10_state.md R29: `emit_en` carries `EMIT` at all times; `adc_req` is high exactly at a SAMP step with its
channel, `ser_req` exactly at RECV, the motor strobe exactly at DRV with the speed, `disp_req` exactly at a DISP step; none
of them while `rst` is asserted, DEDUCED (log 21) from 70_reset_and_hazards.md R231 ("no transaction is begun"). Two
things are the model's choice (log 21): ports are read once a step, and an operand port is told only with its request. -/
def Obligations.PortsFollowTheOperation : Prop :=
  (∀ s : State, (pins s).emitEn = s.emit) ∧
  (∀ s : State, s.rstLevel = true → (pins s).adc = none ∧ (pins s).serReq = false ∧ (pins s).mot = none ∧
    (pins s).disp = none) ∧
  ∀ (s : State) (i : Instr), s.rstLevel = false → decode s.rom[s.ph] = .op i →
    (∀ ch, (pins s).adc = some ch ↔ ∃ bank, i = .samp bank ch) ∧
    ((pins s).serReq = true ↔ i = .recv) ∧
    (∀ side v, (pins s).mot = some (side, v) ↔ i = .drv side ∧ v = s.speedOf side) ∧
    (∀ row text, (pins s).disp = some (row, text) ↔
      (i = .dispLabel ∧ row = s.cfg.labelRow ∧ text = labelText s.lbl) ∨
      (i = .dispValues ∧ row = s.cfg.valueRow ∧ text = valueText s.cfg s.cv))

/-- 60_exceptions.md R213 with 42_drive_mapper.md R166: after a cycle the speeds the motor driver was last given are the `LS` and
`RS` of its end, in a cycle that matched nothing too. -/
def Obligations.MotorsWereGivenTheRetainedSpeeds : Prop :=
  ∀ (c : Config) (r : Retained) (x : CycleInput) (past : List Event),
    lastSpeed .left (past ++ (cycle c r x).2) = some (cycle c r x).1.ls ∧
    lastSpeed .right (past ++ (cycle c r x).2) = some (cycle c r x).1.rs

/-- 60_exceptions.md R201 to R204: one step meets at most one of the three error conditions (R206 says so of a whole cycle),
and where the operation that meets one goes on: HANG_WAIT leaves every register, UNCLASSIFIED leaves everything but `PH`,
and OUT_OF_RANGE leaves a speed at its upper bound. That operations go on is Obligations.EveryOperationCompletesOrHolds. -/
def Obligations.ErrorConditionsOfOneStepAndTheirEffects : Prop :=
  (∀ (s : State) (i : Instr) (c c' : ErrorCondition), meetsCondition s i c = true → meetsCondition s i c' = true → c = c') ∧
  (∀ (s t : State) (i : Instr), meetsCondition s i .hangWait = true → exec i s = .next t →
    t = { s with adcIn := t.adcIn, adcPolls := t.adcPolls, serIn := t.serIn, serPolls := t.serPolls }) ∧
  (∀ (s t : State) (i : Instr), meetsCondition s i .unclassified = true → exec i s = .next t →
    t = { s with ph := t.ph }) ∧
  ∀ (s t : State) (i : Instr), s.cfg.wf = true → meetsCondition s i .outOfRange = true → exec i s = .next t →
    t.ls.toNat = 255 ∨ t.rs.toNat = 255
end

