-- ==== Sys2Proof/Laws/State.lean ====
section
/-! SUPPORT. One lemma per field of State and per update, so that no later proof unfolds a record update. -/

namespace Sys2Proof.Machine

/-! ### setEmit -/

@[simp] theorem State.setEmit_on (s : State) (b : Bool) : (s.setEmit b).on = s.on := rfl
@[simp] theorem State.setEmit_off (s : State) (b : Bool) : (s.setEmit b).off = s.off := rfl
@[simp] theorem State.setEmit_cv (s : State) (b : Bool) : (s.setEmit b).cv = s.cv := rfl
@[simp] theorem State.setEmit_base (s : State) (b : Bool) : (s.setEmit b).base = s.base := rfl
@[simp] theorem State.setEmit_pat (s : State) (b : Bool) : (s.setEmit b).pat = s.pat := rfl
@[simp] theorem State.setEmit_cat (s : State) (b : Bool) : (s.setEmit b).cat = s.cat := rfl
@[simp] theorem State.setEmit_ls (s : State) (b : Bool) : (s.setEmit b).ls = s.ls := rfl
@[simp] theorem State.setEmit_rs (s : State) (b : Bool) : (s.setEmit b).rs = s.rs := rfl
@[simp] theorem State.setEmit_lbl (s : State) (b : Bool) : (s.setEmit b).lbl = s.lbl := rfl
@[simp] theorem State.setEmit_emit (s : State) (b : Bool) : (s.setEmit b).emit = b := rfl
@[simp] theorem State.setEmit_ph (s : State) (b : Bool) : (s.setEmit b).ph = s.ph := rfl
@[simp] theorem State.setEmit_rom (s : State) (b : Bool) : (s.setEmit b).rom = s.rom := rfl
@[simp] theorem State.setEmit_cfg (s : State) (b : Bool) : (s.setEmit b).cfg = s.cfg := rfl
@[simp] theorem State.setEmit_adcIn (s : State) (b : Bool) : (s.setEmit b).adcIn = s.adcIn := rfl
@[simp] theorem State.setEmit_adcPolls (s : State) (b : Bool) : (s.setEmit b).adcPolls = s.adcPolls := rfl
@[simp] theorem State.setEmit_serIn (s : State) (b : Bool) : (s.setEmit b).serIn = s.serIn := rfl
@[simp] theorem State.setEmit_serPolls (s : State) (b : Bool) : (s.setEmit b).serPolls = s.serPolls := rfl
@[simp] theorem State.setEmit_rstIn (s : State) (b : Bool) : (s.setEmit b).rstIn = s.rstIn := rfl
@[simp] theorem State.setEmit_events (s : State) (b : Bool) : (s.setEmit b).events = s.events := rfl

/-! ### setOn -/

@[simp] theorem State.setOn_on (s : State) (ch : Channel) (v : Byte) : (s.setOn ch v).on = s.on.set ch v := rfl
@[simp] theorem State.setOn_off (s : State) (ch : Channel) (v : Byte) : (s.setOn ch v).off = s.off := rfl
@[simp] theorem State.setOn_cv (s : State) (ch : Channel) (v : Byte) : (s.setOn ch v).cv = s.cv := rfl
@[simp] theorem State.setOn_base (s : State) (ch : Channel) (v : Byte) : (s.setOn ch v).base = s.base := rfl
@[simp] theorem State.setOn_pat (s : State) (ch : Channel) (v : Byte) : (s.setOn ch v).pat = s.pat := rfl
@[simp] theorem State.setOn_cat (s : State) (ch : Channel) (v : Byte) : (s.setOn ch v).cat = s.cat := rfl
@[simp] theorem State.setOn_ls (s : State) (ch : Channel) (v : Byte) : (s.setOn ch v).ls = s.ls := rfl
@[simp] theorem State.setOn_rs (s : State) (ch : Channel) (v : Byte) : (s.setOn ch v).rs = s.rs := rfl
@[simp] theorem State.setOn_lbl (s : State) (ch : Channel) (v : Byte) : (s.setOn ch v).lbl = s.lbl := rfl
@[simp] theorem State.setOn_emit (s : State) (ch : Channel) (v : Byte) : (s.setOn ch v).emit = s.emit := rfl
@[simp] theorem State.setOn_ph (s : State) (ch : Channel) (v : Byte) : (s.setOn ch v).ph = s.ph := rfl
@[simp] theorem State.setOn_rom (s : State) (ch : Channel) (v : Byte) : (s.setOn ch v).rom = s.rom := rfl
@[simp] theorem State.setOn_cfg (s : State) (ch : Channel) (v : Byte) : (s.setOn ch v).cfg = s.cfg := rfl
@[simp] theorem State.setOn_adcIn (s : State) (ch : Channel) (v : Byte) : (s.setOn ch v).adcIn = s.adcIn := rfl
@[simp] theorem State.setOn_adcPolls (s : State) (ch : Channel) (v : Byte) : (s.setOn ch v).adcPolls = s.adcPolls := rfl
@[simp] theorem State.setOn_serIn (s : State) (ch : Channel) (v : Byte) : (s.setOn ch v).serIn = s.serIn := rfl
@[simp] theorem State.setOn_serPolls (s : State) (ch : Channel) (v : Byte) : (s.setOn ch v).serPolls = s.serPolls := rfl
@[simp] theorem State.setOn_rstIn (s : State) (ch : Channel) (v : Byte) : (s.setOn ch v).rstIn = s.rstIn := rfl
@[simp] theorem State.setOn_events (s : State) (ch : Channel) (v : Byte) : (s.setOn ch v).events = s.events := rfl

/-! ### setOff -/

@[simp] theorem State.setOff_on (s : State) (ch : Channel) (v : Byte) : (s.setOff ch v).on = s.on := rfl
@[simp] theorem State.setOff_off (s : State) (ch : Channel) (v : Byte) : (s.setOff ch v).off = s.off.set ch v := rfl
@[simp] theorem State.setOff_cv (s : State) (ch : Channel) (v : Byte) : (s.setOff ch v).cv = s.cv := rfl
@[simp] theorem State.setOff_base (s : State) (ch : Channel) (v : Byte) : (s.setOff ch v).base = s.base := rfl
@[simp] theorem State.setOff_pat (s : State) (ch : Channel) (v : Byte) : (s.setOff ch v).pat = s.pat := rfl
@[simp] theorem State.setOff_cat (s : State) (ch : Channel) (v : Byte) : (s.setOff ch v).cat = s.cat := rfl
@[simp] theorem State.setOff_ls (s : State) (ch : Channel) (v : Byte) : (s.setOff ch v).ls = s.ls := rfl
@[simp] theorem State.setOff_rs (s : State) (ch : Channel) (v : Byte) : (s.setOff ch v).rs = s.rs := rfl
@[simp] theorem State.setOff_lbl (s : State) (ch : Channel) (v : Byte) : (s.setOff ch v).lbl = s.lbl := rfl
@[simp] theorem State.setOff_emit (s : State) (ch : Channel) (v : Byte) : (s.setOff ch v).emit = s.emit := rfl
@[simp] theorem State.setOff_ph (s : State) (ch : Channel) (v : Byte) : (s.setOff ch v).ph = s.ph := rfl
@[simp] theorem State.setOff_rom (s : State) (ch : Channel) (v : Byte) : (s.setOff ch v).rom = s.rom := rfl
@[simp] theorem State.setOff_cfg (s : State) (ch : Channel) (v : Byte) : (s.setOff ch v).cfg = s.cfg := rfl
@[simp] theorem State.setOff_adcIn (s : State) (ch : Channel) (v : Byte) : (s.setOff ch v).adcIn = s.adcIn := rfl
@[simp] theorem State.setOff_adcPolls (s : State) (ch : Channel) (v : Byte) : (s.setOff ch v).adcPolls = s.adcPolls := rfl
@[simp] theorem State.setOff_serIn (s : State) (ch : Channel) (v : Byte) : (s.setOff ch v).serIn = s.serIn := rfl
@[simp] theorem State.setOff_serPolls (s : State) (ch : Channel) (v : Byte) : (s.setOff ch v).serPolls = s.serPolls := rfl
@[simp] theorem State.setOff_rstIn (s : State) (ch : Channel) (v : Byte) : (s.setOff ch v).rstIn = s.rstIn := rfl
@[simp] theorem State.setOff_events (s : State) (ch : Channel) (v : Byte) : (s.setOff ch v).events = s.events := rfl

/-! ### setCv -/

@[simp] theorem State.setCv_on (s : State) (v : Bank5) : (s.setCv v).on = s.on := rfl
@[simp] theorem State.setCv_off (s : State) (v : Bank5) : (s.setCv v).off = s.off := rfl
@[simp] theorem State.setCv_cv (s : State) (v : Bank5) : (s.setCv v).cv = v := rfl
@[simp] theorem State.setCv_base (s : State) (v : Bank5) : (s.setCv v).base = s.base := rfl
@[simp] theorem State.setCv_pat (s : State) (v : Bank5) : (s.setCv v).pat = s.pat := rfl
@[simp] theorem State.setCv_cat (s : State) (v : Bank5) : (s.setCv v).cat = s.cat := rfl
@[simp] theorem State.setCv_ls (s : State) (v : Bank5) : (s.setCv v).ls = s.ls := rfl
@[simp] theorem State.setCv_rs (s : State) (v : Bank5) : (s.setCv v).rs = s.rs := rfl
@[simp] theorem State.setCv_lbl (s : State) (v : Bank5) : (s.setCv v).lbl = s.lbl := rfl
@[simp] theorem State.setCv_emit (s : State) (v : Bank5) : (s.setCv v).emit = s.emit := rfl
@[simp] theorem State.setCv_ph (s : State) (v : Bank5) : (s.setCv v).ph = s.ph := rfl
@[simp] theorem State.setCv_rom (s : State) (v : Bank5) : (s.setCv v).rom = s.rom := rfl
@[simp] theorem State.setCv_cfg (s : State) (v : Bank5) : (s.setCv v).cfg = s.cfg := rfl
@[simp] theorem State.setCv_adcIn (s : State) (v : Bank5) : (s.setCv v).adcIn = s.adcIn := rfl
@[simp] theorem State.setCv_adcPolls (s : State) (v : Bank5) : (s.setCv v).adcPolls = s.adcPolls := rfl
@[simp] theorem State.setCv_serIn (s : State) (v : Bank5) : (s.setCv v).serIn = s.serIn := rfl
@[simp] theorem State.setCv_serPolls (s : State) (v : Bank5) : (s.setCv v).serPolls = s.serPolls := rfl
@[simp] theorem State.setCv_rstIn (s : State) (v : Bank5) : (s.setCv v).rstIn = s.rstIn := rfl
@[simp] theorem State.setCv_events (s : State) (v : Bank5) : (s.setCv v).events = s.events := rfl

/-! ### setBase -/

@[simp] theorem State.setBase_on (s : State) (v : Nat) : (s.setBase v).on = s.on := rfl
@[simp] theorem State.setBase_off (s : State) (v : Nat) : (s.setBase v).off = s.off := rfl
@[simp] theorem State.setBase_cv (s : State) (v : Nat) : (s.setBase v).cv = s.cv := rfl
@[simp] theorem State.setBase_base (s : State) (v : Nat) : (s.setBase v).base = v := rfl
@[simp] theorem State.setBase_pat (s : State) (v : Nat) : (s.setBase v).pat = s.pat := rfl
@[simp] theorem State.setBase_cat (s : State) (v : Nat) : (s.setBase v).cat = s.cat := rfl
@[simp] theorem State.setBase_ls (s : State) (v : Nat) : (s.setBase v).ls = s.ls := rfl
@[simp] theorem State.setBase_rs (s : State) (v : Nat) : (s.setBase v).rs = s.rs := rfl
@[simp] theorem State.setBase_lbl (s : State) (v : Nat) : (s.setBase v).lbl = s.lbl := rfl
@[simp] theorem State.setBase_emit (s : State) (v : Nat) : (s.setBase v).emit = s.emit := rfl
@[simp] theorem State.setBase_ph (s : State) (v : Nat) : (s.setBase v).ph = s.ph := rfl
@[simp] theorem State.setBase_rom (s : State) (v : Nat) : (s.setBase v).rom = s.rom := rfl
@[simp] theorem State.setBase_cfg (s : State) (v : Nat) : (s.setBase v).cfg = s.cfg := rfl
@[simp] theorem State.setBase_adcIn (s : State) (v : Nat) : (s.setBase v).adcIn = s.adcIn := rfl
@[simp] theorem State.setBase_adcPolls (s : State) (v : Nat) : (s.setBase v).adcPolls = s.adcPolls := rfl
@[simp] theorem State.setBase_serIn (s : State) (v : Nat) : (s.setBase v).serIn = s.serIn := rfl
@[simp] theorem State.setBase_serPolls (s : State) (v : Nat) : (s.setBase v).serPolls = s.serPolls := rfl
@[simp] theorem State.setBase_rstIn (s : State) (v : Nat) : (s.setBase v).rstIn = s.rstIn := rfl
@[simp] theorem State.setBase_events (s : State) (v : Nat) : (s.setBase v).events = s.events := rfl

/-! ### setClass -/

@[simp] theorem State.setClass_on (s : State) (p : BitVec 5) (c : Category) : (s.setClass p c).on = s.on := rfl
@[simp] theorem State.setClass_off (s : State) (p : BitVec 5) (c : Category) : (s.setClass p c).off = s.off := rfl
@[simp] theorem State.setClass_cv (s : State) (p : BitVec 5) (c : Category) : (s.setClass p c).cv = s.cv := rfl
@[simp] theorem State.setClass_base (s : State) (p : BitVec 5) (c : Category) : (s.setClass p c).base = s.base := rfl
@[simp] theorem State.setClass_pat (s : State) (p : BitVec 5) (c : Category) : (s.setClass p c).pat = p := rfl
@[simp] theorem State.setClass_cat (s : State) (p : BitVec 5) (c : Category) : (s.setClass p c).cat = c := rfl
@[simp] theorem State.setClass_ls (s : State) (p : BitVec 5) (c : Category) : (s.setClass p c).ls = s.ls := rfl
@[simp] theorem State.setClass_rs (s : State) (p : BitVec 5) (c : Category) : (s.setClass p c).rs = s.rs := rfl
@[simp] theorem State.setClass_lbl (s : State) (p : BitVec 5) (c : Category) : (s.setClass p c).lbl = s.lbl := rfl
@[simp] theorem State.setClass_emit (s : State) (p : BitVec 5) (c : Category) : (s.setClass p c).emit = s.emit := rfl
@[simp] theorem State.setClass_ph (s : State) (p : BitVec 5) (c : Category) : (s.setClass p c).ph = s.ph := rfl
@[simp] theorem State.setClass_rom (s : State) (p : BitVec 5) (c : Category) : (s.setClass p c).rom = s.rom := rfl
@[simp] theorem State.setClass_cfg (s : State) (p : BitVec 5) (c : Category) : (s.setClass p c).cfg = s.cfg := rfl
@[simp] theorem State.setClass_adcIn (s : State) (p : BitVec 5) (c : Category) : (s.setClass p c).adcIn = s.adcIn := rfl
@[simp] theorem State.setClass_adcPolls (s : State) (p : BitVec 5) (c : Category) : (s.setClass p c).adcPolls = s.adcPolls := rfl
@[simp] theorem State.setClass_serIn (s : State) (p : BitVec 5) (c : Category) : (s.setClass p c).serIn = s.serIn := rfl
@[simp] theorem State.setClass_serPolls (s : State) (p : BitVec 5) (c : Category) : (s.setClass p c).serPolls = s.serPolls := rfl
@[simp] theorem State.setClass_rstIn (s : State) (p : BitVec 5) (c : Category) : (s.setClass p c).rstIn = s.rstIn := rfl
@[simp] theorem State.setClass_events (s : State) (p : BitVec 5) (c : Category) : (s.setClass p c).events = s.events := rfl

/-! ### setDrive -/

@[simp] theorem State.setDrive_on (s : State) (l r : Byte) (lab : Label) : (s.setDrive l r lab).on = s.on := rfl
@[simp] theorem State.setDrive_off (s : State) (l r : Byte) (lab : Label) : (s.setDrive l r lab).off = s.off := rfl
@[simp] theorem State.setDrive_cv (s : State) (l r : Byte) (lab : Label) : (s.setDrive l r lab).cv = s.cv := rfl
@[simp] theorem State.setDrive_base (s : State) (l r : Byte) (lab : Label) : (s.setDrive l r lab).base = s.base := rfl
@[simp] theorem State.setDrive_pat (s : State) (l r : Byte) (lab : Label) : (s.setDrive l r lab).pat = s.pat := rfl
@[simp] theorem State.setDrive_cat (s : State) (l r : Byte) (lab : Label) : (s.setDrive l r lab).cat = s.cat := rfl
@[simp] theorem State.setDrive_ls (s : State) (l r : Byte) (lab : Label) : (s.setDrive l r lab).ls = l := rfl
@[simp] theorem State.setDrive_rs (s : State) (l r : Byte) (lab : Label) : (s.setDrive l r lab).rs = r := rfl
@[simp] theorem State.setDrive_lbl (s : State) (l r : Byte) (lab : Label) : (s.setDrive l r lab).lbl = lab := rfl
@[simp] theorem State.setDrive_emit (s : State) (l r : Byte) (lab : Label) : (s.setDrive l r lab).emit = s.emit := rfl
@[simp] theorem State.setDrive_ph (s : State) (l r : Byte) (lab : Label) : (s.setDrive l r lab).ph = s.ph := rfl
@[simp] theorem State.setDrive_rom (s : State) (l r : Byte) (lab : Label) : (s.setDrive l r lab).rom = s.rom := rfl
@[simp] theorem State.setDrive_cfg (s : State) (l r : Byte) (lab : Label) : (s.setDrive l r lab).cfg = s.cfg := rfl
@[simp] theorem State.setDrive_adcIn (s : State) (l r : Byte) (lab : Label) : (s.setDrive l r lab).adcIn = s.adcIn := rfl
@[simp] theorem State.setDrive_adcPolls (s : State) (l r : Byte) (lab : Label) : (s.setDrive l r lab).adcPolls = s.adcPolls := rfl
@[simp] theorem State.setDrive_serIn (s : State) (l r : Byte) (lab : Label) : (s.setDrive l r lab).serIn = s.serIn := rfl
@[simp] theorem State.setDrive_serPolls (s : State) (l r : Byte) (lab : Label) : (s.setDrive l r lab).serPolls = s.serPolls := rfl
@[simp] theorem State.setDrive_rstIn (s : State) (l r : Byte) (lab : Label) : (s.setDrive l r lab).rstIn = s.rstIn := rfl
@[simp] theorem State.setDrive_events (s : State) (l r : Byte) (lab : Label) : (s.setDrive l r lab).events = s.events := rfl

/-! ### setPh -/

@[simp] theorem State.setPh_on (s : State) (p : Phase) : (s.setPh p).on = s.on := rfl
@[simp] theorem State.setPh_off (s : State) (p : Phase) : (s.setPh p).off = s.off := rfl
@[simp] theorem State.setPh_cv (s : State) (p : Phase) : (s.setPh p).cv = s.cv := rfl
@[simp] theorem State.setPh_base (s : State) (p : Phase) : (s.setPh p).base = s.base := rfl
@[simp] theorem State.setPh_pat (s : State) (p : Phase) : (s.setPh p).pat = s.pat := rfl
@[simp] theorem State.setPh_cat (s : State) (p : Phase) : (s.setPh p).cat = s.cat := rfl
@[simp] theorem State.setPh_ls (s : State) (p : Phase) : (s.setPh p).ls = s.ls := rfl
@[simp] theorem State.setPh_rs (s : State) (p : Phase) : (s.setPh p).rs = s.rs := rfl
@[simp] theorem State.setPh_lbl (s : State) (p : Phase) : (s.setPh p).lbl = s.lbl := rfl
@[simp] theorem State.setPh_emit (s : State) (p : Phase) : (s.setPh p).emit = s.emit := rfl
@[simp] theorem State.setPh_ph (s : State) (p : Phase) : (s.setPh p).ph = p := rfl
@[simp] theorem State.setPh_rom (s : State) (p : Phase) : (s.setPh p).rom = s.rom := rfl
@[simp] theorem State.setPh_cfg (s : State) (p : Phase) : (s.setPh p).cfg = s.cfg := rfl
@[simp] theorem State.setPh_adcIn (s : State) (p : Phase) : (s.setPh p).adcIn = s.adcIn := rfl
@[simp] theorem State.setPh_adcPolls (s : State) (p : Phase) : (s.setPh p).adcPolls = s.adcPolls := rfl
@[simp] theorem State.setPh_serIn (s : State) (p : Phase) : (s.setPh p).serIn = s.serIn := rfl
@[simp] theorem State.setPh_serPolls (s : State) (p : Phase) : (s.setPh p).serPolls = s.serPolls := rfl
@[simp] theorem State.setPh_rstIn (s : State) (p : Phase) : (s.setPh p).rstIn = s.rstIn := rfl
@[simp] theorem State.setPh_events (s : State) (p : Phase) : (s.setPh p).events = s.events := rfl

/-! ### record -/

@[simp] theorem State.record_on (s : State) (e : Event) : (s.record e).on = s.on := rfl
@[simp] theorem State.record_off (s : State) (e : Event) : (s.record e).off = s.off := rfl
@[simp] theorem State.record_cv (s : State) (e : Event) : (s.record e).cv = s.cv := rfl
@[simp] theorem State.record_base (s : State) (e : Event) : (s.record e).base = s.base := rfl
@[simp] theorem State.record_pat (s : State) (e : Event) : (s.record e).pat = s.pat := rfl
@[simp] theorem State.record_cat (s : State) (e : Event) : (s.record e).cat = s.cat := rfl
@[simp] theorem State.record_ls (s : State) (e : Event) : (s.record e).ls = s.ls := rfl
@[simp] theorem State.record_rs (s : State) (e : Event) : (s.record e).rs = s.rs := rfl
@[simp] theorem State.record_lbl (s : State) (e : Event) : (s.record e).lbl = s.lbl := rfl
@[simp] theorem State.record_emit (s : State) (e : Event) : (s.record e).emit = s.emit := rfl
@[simp] theorem State.record_ph (s : State) (e : Event) : (s.record e).ph = s.ph := rfl
@[simp] theorem State.record_rom (s : State) (e : Event) : (s.record e).rom = s.rom := rfl
@[simp] theorem State.record_cfg (s : State) (e : Event) : (s.record e).cfg = s.cfg := rfl
@[simp] theorem State.record_adcIn (s : State) (e : Event) : (s.record e).adcIn = s.adcIn := rfl
@[simp] theorem State.record_adcPolls (s : State) (e : Event) : (s.record e).adcPolls = s.adcPolls := rfl
@[simp] theorem State.record_serIn (s : State) (e : Event) : (s.record e).serIn = s.serIn := rfl
@[simp] theorem State.record_serPolls (s : State) (e : Event) : (s.record e).serPolls = s.serPolls := rfl
@[simp] theorem State.record_rstIn (s : State) (e : Event) : (s.record e).rstIn = s.rstIn := rfl
@[simp] theorem State.record_events (s : State) (e : Event) : (s.record e).events = s.events ++ [e] := rfl

/-! ### adcPolled -/

@[simp] theorem State.adcPolled_on (s : State) : s.adcPolled.on = s.on := rfl
@[simp] theorem State.adcPolled_off (s : State) : s.adcPolled.off = s.off := rfl
@[simp] theorem State.adcPolled_cv (s : State) : s.adcPolled.cv = s.cv := rfl
@[simp] theorem State.adcPolled_base (s : State) : s.adcPolled.base = s.base := rfl
@[simp] theorem State.adcPolled_pat (s : State) : s.adcPolled.pat = s.pat := rfl
@[simp] theorem State.adcPolled_cat (s : State) : s.adcPolled.cat = s.cat := rfl
@[simp] theorem State.adcPolled_ls (s : State) : s.adcPolled.ls = s.ls := rfl
@[simp] theorem State.adcPolled_rs (s : State) : s.adcPolled.rs = s.rs := rfl
@[simp] theorem State.adcPolled_lbl (s : State) : s.adcPolled.lbl = s.lbl := rfl
@[simp] theorem State.adcPolled_emit (s : State) : s.adcPolled.emit = s.emit := rfl
@[simp] theorem State.adcPolled_ph (s : State) : s.adcPolled.ph = s.ph := rfl
@[simp] theorem State.adcPolled_rom (s : State) : s.adcPolled.rom = s.rom := rfl
@[simp] theorem State.adcPolled_cfg (s : State) : s.adcPolled.cfg = s.cfg := rfl
@[simp] theorem State.adcPolled_adcIn (s : State) : s.adcPolled.adcIn = s.adcIn.tail := rfl
@[simp] theorem State.adcPolled_adcPolls (s : State) : s.adcPolled.adcPolls = s.adcPolls + 1 := rfl
@[simp] theorem State.adcPolled_serIn (s : State) : s.adcPolled.serIn = s.serIn := rfl
@[simp] theorem State.adcPolled_serPolls (s : State) : s.adcPolled.serPolls = s.serPolls := rfl
@[simp] theorem State.adcPolled_rstIn (s : State) : s.adcPolled.rstIn = s.rstIn := rfl
@[simp] theorem State.adcPolled_events (s : State) : s.adcPolled.events = s.events := rfl

/-! ### serPolled -/

@[simp] theorem State.serPolled_on (s : State) : s.serPolled.on = s.on := rfl
@[simp] theorem State.serPolled_off (s : State) : s.serPolled.off = s.off := rfl
@[simp] theorem State.serPolled_cv (s : State) : s.serPolled.cv = s.cv := rfl
@[simp] theorem State.serPolled_base (s : State) : s.serPolled.base = s.base := rfl
@[simp] theorem State.serPolled_pat (s : State) : s.serPolled.pat = s.pat := rfl
@[simp] theorem State.serPolled_cat (s : State) : s.serPolled.cat = s.cat := rfl
@[simp] theorem State.serPolled_ls (s : State) : s.serPolled.ls = s.ls := rfl
@[simp] theorem State.serPolled_rs (s : State) : s.serPolled.rs = s.rs := rfl
@[simp] theorem State.serPolled_lbl (s : State) : s.serPolled.lbl = s.lbl := rfl
@[simp] theorem State.serPolled_emit (s : State) : s.serPolled.emit = s.emit := rfl
@[simp] theorem State.serPolled_ph (s : State) : s.serPolled.ph = s.ph := rfl
@[simp] theorem State.serPolled_rom (s : State) : s.serPolled.rom = s.rom := rfl
@[simp] theorem State.serPolled_cfg (s : State) : s.serPolled.cfg = s.cfg := rfl
@[simp] theorem State.serPolled_adcIn (s : State) : s.serPolled.adcIn = s.adcIn := rfl
@[simp] theorem State.serPolled_adcPolls (s : State) : s.serPolled.adcPolls = s.adcPolls := rfl
@[simp] theorem State.serPolled_serIn (s : State) : s.serPolled.serIn = s.serIn.tail := rfl
@[simp] theorem State.serPolled_serPolls (s : State) : s.serPolled.serPolls = s.serPolls + 1 := rfl
@[simp] theorem State.serPolled_rstIn (s : State) : s.serPolled.rstIn = s.rstIn := rfl
@[simp] theorem State.serPolled_events (s : State) : s.serPolled.events = s.events := rfl

/-! ### rstTaken -/

@[simp] theorem State.rstTaken_on (s : State) : s.rstTaken.on = s.on := rfl
@[simp] theorem State.rstTaken_off (s : State) : s.rstTaken.off = s.off := rfl
@[simp] theorem State.rstTaken_cv (s : State) : s.rstTaken.cv = s.cv := rfl
@[simp] theorem State.rstTaken_base (s : State) : s.rstTaken.base = s.base := rfl
@[simp] theorem State.rstTaken_pat (s : State) : s.rstTaken.pat = s.pat := rfl
@[simp] theorem State.rstTaken_cat (s : State) : s.rstTaken.cat = s.cat := rfl
@[simp] theorem State.rstTaken_ls (s : State) : s.rstTaken.ls = s.ls := rfl
@[simp] theorem State.rstTaken_rs (s : State) : s.rstTaken.rs = s.rs := rfl
@[simp] theorem State.rstTaken_lbl (s : State) : s.rstTaken.lbl = s.lbl := rfl
@[simp] theorem State.rstTaken_emit (s : State) : s.rstTaken.emit = s.emit := rfl
@[simp] theorem State.rstTaken_ph (s : State) : s.rstTaken.ph = s.ph := rfl
@[simp] theorem State.rstTaken_rom (s : State) : s.rstTaken.rom = s.rom := rfl
@[simp] theorem State.rstTaken_cfg (s : State) : s.rstTaken.cfg = s.cfg := rfl
@[simp] theorem State.rstTaken_adcIn (s : State) : s.rstTaken.adcIn = s.adcIn := rfl
@[simp] theorem State.rstTaken_adcPolls (s : State) : s.rstTaken.adcPolls = s.adcPolls := rfl
@[simp] theorem State.rstTaken_serIn (s : State) : s.rstTaken.serIn = s.serIn := rfl
@[simp] theorem State.rstTaken_serPolls (s : State) : s.rstTaken.serPolls = s.serPolls := rfl
@[simp] theorem State.rstTaken_rstIn (s : State) : s.rstTaken.rstIn = s.rstIn.tail := rfl
@[simp] theorem State.rstTaken_events (s : State) : s.rstTaken.events = s.events := rfl

/-! ### assertReset -/

@[simp] theorem State.assertReset_on (s : State) : s.assertReset.on = Vector.replicate 5 0 := rfl
@[simp] theorem State.assertReset_off (s : State) : s.assertReset.off = Vector.replicate 5 0 := rfl
@[simp] theorem State.assertReset_cv (s : State) : s.assertReset.cv = Vector.replicate 5 0 := rfl
@[simp] theorem State.assertReset_base (s : State) : s.assertReset.base = 0 := rfl
@[simp] theorem State.assertReset_pat (s : State) : s.assertReset.pat = 0 := rfl
@[simp] theorem State.assertReset_cat (s : State) : s.assertReset.cat = .none := rfl
@[simp] theorem State.assertReset_ls (s : State) : s.assertReset.ls = s.cfg.ls0 := rfl
@[simp] theorem State.assertReset_rs (s : State) : s.assertReset.rs = s.cfg.rs0 := rfl
@[simp] theorem State.assertReset_lbl (s : State) : s.assertReset.lbl = s.cfg.lbl0 := rfl
@[simp] theorem State.assertReset_emit (s : State) : s.assertReset.emit = false := rfl
@[simp] theorem State.assertReset_ph (s : State) : s.assertReset.ph = 0 := rfl
@[simp] theorem State.assertReset_rom (s : State) : s.assertReset.rom = s.rom := rfl
@[simp] theorem State.assertReset_cfg (s : State) : s.assertReset.cfg = s.cfg := rfl
@[simp] theorem State.assertReset_adcIn (s : State) : s.assertReset.adcIn = s.adcIn := rfl
@[simp] theorem State.assertReset_adcPolls (s : State) : s.assertReset.adcPolls = s.adcPolls := rfl
@[simp] theorem State.assertReset_serIn (s : State) : s.assertReset.serIn = s.serIn := rfl
@[simp] theorem State.assertReset_serPolls (s : State) : s.assertReset.serPolls = s.serPolls := rfl
@[simp] theorem State.assertReset_rstIn (s : State) : s.assertReset.rstIn = s.rstIn := rfl
@[simp] theorem State.assertReset_events (s : State) : s.assertReset.events = s.events := rfl

/-! ### setReading -/

@[simp] theorem State.setReading_cv (s : State) (bank : Bank) (ch : Channel) (v : Byte) :
    (s.setReading bank ch v).cv = s.cv := by cases bank <;> rfl
@[simp] theorem State.setReading_base (s : State) (bank : Bank) (ch : Channel) (v : Byte) :
    (s.setReading bank ch v).base = s.base := by cases bank <;> rfl
@[simp] theorem State.setReading_pat (s : State) (bank : Bank) (ch : Channel) (v : Byte) :
    (s.setReading bank ch v).pat = s.pat := by cases bank <;> rfl
@[simp] theorem State.setReading_cat (s : State) (bank : Bank) (ch : Channel) (v : Byte) :
    (s.setReading bank ch v).cat = s.cat := by cases bank <;> rfl
@[simp] theorem State.setReading_ls (s : State) (bank : Bank) (ch : Channel) (v : Byte) :
    (s.setReading bank ch v).ls = s.ls := by cases bank <;> rfl
@[simp] theorem State.setReading_rs (s : State) (bank : Bank) (ch : Channel) (v : Byte) :
    (s.setReading bank ch v).rs = s.rs := by cases bank <;> rfl
@[simp] theorem State.setReading_lbl (s : State) (bank : Bank) (ch : Channel) (v : Byte) :
    (s.setReading bank ch v).lbl = s.lbl := by cases bank <;> rfl
@[simp] theorem State.setReading_emit (s : State) (bank : Bank) (ch : Channel) (v : Byte) :
    (s.setReading bank ch v).emit = s.emit := by cases bank <;> rfl
@[simp] theorem State.setReading_ph (s : State) (bank : Bank) (ch : Channel) (v : Byte) :
    (s.setReading bank ch v).ph = s.ph := by cases bank <;> rfl
@[simp] theorem State.setReading_rom (s : State) (bank : Bank) (ch : Channel) (v : Byte) :
    (s.setReading bank ch v).rom = s.rom := by cases bank <;> rfl
@[simp] theorem State.setReading_cfg (s : State) (bank : Bank) (ch : Channel) (v : Byte) :
    (s.setReading bank ch v).cfg = s.cfg := by cases bank <;> rfl
@[simp] theorem State.setReading_adcIn (s : State) (bank : Bank) (ch : Channel) (v : Byte) :
    (s.setReading bank ch v).adcIn = s.adcIn := by cases bank <;> rfl
@[simp] theorem State.setReading_adcPolls (s : State) (bank : Bank) (ch : Channel) (v : Byte) :
    (s.setReading bank ch v).adcPolls = s.adcPolls := by cases bank <;> rfl
@[simp] theorem State.setReading_serIn (s : State) (bank : Bank) (ch : Channel) (v : Byte) :
    (s.setReading bank ch v).serIn = s.serIn := by cases bank <;> rfl
@[simp] theorem State.setReading_serPolls (s : State) (bank : Bank) (ch : Channel) (v : Byte) :
    (s.setReading bank ch v).serPolls = s.serPolls := by cases bank <;> rfl
@[simp] theorem State.setReading_rstIn (s : State) (bank : Bank) (ch : Channel) (v : Byte) :
    (s.setReading bank ch v).rstIn = s.rstIn := by cases bank <;> rfl
@[simp] theorem State.setReading_events (s : State) (bank : Bank) (ch : Channel) (v : Byte) :
    (s.setReading bank ch v).events = s.events := by cases bank <;> rfl
@[simp] theorem State.setReading_on_bank (s : State) (ch : Channel) (v : Byte) :
    s.setReading .on ch v = s.setOn ch v := rfl
@[simp] theorem State.setReading_off_bank (s : State) (ch : Channel) (v : Byte) :
    s.setReading .off ch v = s.setOff ch v := rfl

/-! ### mapDrive: everything but the Drive Output and the label stays -/

@[simp] theorem mapDrive_on (s : State) : (mapDrive s).on = s.on := by
  unfold mapDrive; split <;> rfl
@[simp] theorem mapDrive_off (s : State) : (mapDrive s).off = s.off := by
  unfold mapDrive; split <;> rfl
@[simp] theorem mapDrive_cv (s : State) : (mapDrive s).cv = s.cv := by
  unfold mapDrive; split <;> rfl
@[simp] theorem mapDrive_base (s : State) : (mapDrive s).base = s.base := by
  unfold mapDrive; split <;> rfl
@[simp] theorem mapDrive_pat (s : State) : (mapDrive s).pat = s.pat := by
  unfold mapDrive; split <;> rfl
@[simp] theorem mapDrive_cat (s : State) : (mapDrive s).cat = s.cat := by
  unfold mapDrive; split <;> rfl
@[simp] theorem mapDrive_emit (s : State) : (mapDrive s).emit = s.emit := by
  unfold mapDrive; split <;> rfl
@[simp] theorem mapDrive_ph (s : State) : (mapDrive s).ph = s.ph := by
  unfold mapDrive; split <;> rfl
@[simp] theorem mapDrive_rom (s : State) : (mapDrive s).rom = s.rom := by
  unfold mapDrive; split <;> rfl
@[simp] theorem mapDrive_cfg (s : State) : (mapDrive s).cfg = s.cfg := by
  unfold mapDrive; split <;> rfl
@[simp] theorem mapDrive_adcIn (s : State) : (mapDrive s).adcIn = s.adcIn := by
  unfold mapDrive; split <;> rfl
@[simp] theorem mapDrive_adcPolls (s : State) : (mapDrive s).adcPolls = s.adcPolls := by
  unfold mapDrive; split <;> rfl
@[simp] theorem mapDrive_serIn (s : State) : (mapDrive s).serIn = s.serIn := by
  unfold mapDrive; split <;> rfl
@[simp] theorem mapDrive_serPolls (s : State) : (mapDrive s).serPolls = s.serPolls := by
  unfold mapDrive; split <;> rfl
@[simp] theorem mapDrive_rstIn (s : State) : (mapDrive s).rstIn = s.rstIn := by
  unfold mapDrive; split <;> rfl
@[simp] theorem mapDrive_events (s : State) : (mapDrive s).events = s.events := by
  unfold mapDrive; split <;> rfl

end Sys2Proof.Machine
end

