-- ==== Sys2Proof/Laws/Ops.lean ====
section
/-! SUPPORT. What each shared operation can do, said once: the phase register, ending a step, a blocking transaction,
fetching and performing. -/

namespace Sys2Proof.Machine

/-! ### The phase register -/

theorem nextPhase_eq_some {p q : Phase} : nextPhase p = some q ↔ q.val = p.val + 1 := by
  unfold nextPhase
  split
  case isTrue h => simp [Fin.ext_iff, eq_comm]
  case isFalse h => simp only [reduceCtorEq, false_iff]; omega

theorem nextPhase_eq_none {p : Phase} : nextPhase p = none ↔ p = 22 := by
  unfold nextPhase
  split
  case isTrue h => simp only [reduceCtorEq, false_iff, Fin.ext_iff]; intro h2; simp at h2; omega
  case isFalse h => simp only [true_iff, Fin.ext_iff]; simp; omega

/-! ### Ending a step -/

theorem complete_eq_next {s t : State} {after : Phase → State} :
    complete s after = .next t ↔ ∃ p, p.val = s.ph.val + 1 ∧ t = after p := by
  unfold complete
  split
  next p h => simp [← nextPhase_eq_some, h, eq_comm]
  next h => simp [← nextPhase_eq_some, h]

/-- Below step 22 a step ends in `after (PH + 1)`. -/
theorem complete_of_succ {s : State} {p : Phase} (hp : p.val = s.ph.val + 1) (after : Phase → State) :
    complete s after = .next (after p) :=
  complete_eq_next.2 ⟨p, hp, rfl⟩

theorem advance_eq_next {s t u : State} :
    advance s t = .next u ↔ ∃ p, p.val = s.ph.val + 1 ∧ u = t.setPh p := complete_eq_next

theorem advance_of_succ {s : State} {p : Phase} (hp : p.val = s.ph.val + 1) (t : State) :
    advance s t = .next (t.setPh p) := complete_of_succ hp _

/-- A blocking operation that goes on either completes on an answer or holds without one. -/
theorem blocking_eq_next {α : Type} {s held t : State} {answer : Option α} {done : α → State} :
    blocking s answer held done = .next t ↔
      (∃ p v, p.val = s.ph.val + 1 ∧ answer = some v ∧ t = (done v).setPh p) ∨ (answer = none ∧ t = held) := by
  unfold blocking
  split
  next p h =>
    have h' : ∀ q, q.val = s.ph.val + 1 ↔ q = p := fun q => by rw [← nextPhase_eq_some, h]; simp [eq_comm]
    cases answer <;> simp [h', eq_comm]
  next h =>
    have h' : ∀ q : Phase, q.val ≠ s.ph.val + 1 := fun q => by rw [ne_eq, ← nextPhase_eq_some, h]; simp
    cases answer <;> simp [h', eq_comm]

/-- An unanswered blocking operation holds, at every step. -/
theorem blocking_of_none {α : Type} {s held : State} {done : α → State} : blocking s none held done = .next held :=
  blocking_eq_next.2 (.inr ⟨rfl, rfl⟩)

/-- An answered blocking operation below step 22 completes. -/
theorem blocking_of_some {α : Type} {s held : State} {v : α} {done : α → State} {p : Phase} (hp : p.val = s.ph.val + 1) :
    blocking s (some v) held done = .next ((done v).setPh p) :=
  blocking_eq_next.2 (.inl ⟨p, v, hp, rfl, rfl⟩)

/-! ### The collaborators -/

@[simp] theorem State.adcAnswer_of_listed {s : State} {a : Option Byte} {rest : List (Option Byte)}
    (h : s.adcIn = a :: rest) : s.adcAnswer = a := by simp [State.adcAnswer, h]

theorem serData_lt (c : Config) (n : Nat) : serData c n < 2 ^ c.baseW := Nat.mod_lt _ (by positivity)

/-- A received command is a `BASE_W`-bit number. -/
theorem State.serAnswer_lt {s : State} {v : Nat} (h : s.serAnswer = some v) : v < 2 ^ s.cfg.baseW := by
  unfold State.serAnswer at h
  obtain ⟨n, -, rfl⟩ := Option.map_eq_some_iff.1 h
  exact serData_lt _ _

/-! ### Fetching and performing -/

theorem firstReserved_eq_none {rom : Vector Byte 23} :
    firstReserved rom = none ↔ ∀ k : Phase, legalWord rom[k] = true := by
  unfold firstReserved
  rw [List.find?_eq_none]
  constructor
  · intro h k
    have := h rom[k] (by simp)
    simpa using this
  · intro h w hw
    obtain ⟨k, hk, rfl⟩ := List.mem_iff_getElem.1 hw
    have := h ⟨k, by simpa using hk⟩
    simpa using this

theorem legalWord_iff {w : Byte} : legalWord w = true ↔ ∃ i, decode w = .op i := by
  unfold legalWord
  cases decode w <;> simp [Decoded.instr?]

theorem perform_of_decode {s : State} {i : Instr} (hr : firstReserved s.rom = none) (hd : decode s.fetch = .op i) :
    perform s = exec i s := by
  simp [perform, hr, hd]

/-- With a legal ROM, performing a step is performing some operation. -/
theorem perform_of_legal {s : State} (hr : firstReserved s.rom = none) :
    ∃ i, decode s.fetch = .op i ∧ perform s = exec i s := by
  obtain ⟨i, hi⟩ := legalWord_iff.1 (firstReserved_eq_none.1 hr s.ph)
  exact ⟨i, hi, perform_of_decode hr hi⟩

/-- The three ways a step can go on, and only these. -/
theorem tick_eq_next {s t : State} :
    tick s = .next t ↔
      s.cfg.timeoutMode = false ∧ s.cfg.wf = true ∧
        ((s.rstLevel = true ∧ t = s.rstTaken.assertReset) ∨
         (s.rstLevel = false ∧ ∃ i, firstReserved s.rom = none ∧ decode s.fetch = .op i ∧
           exec i s.rstTaken = .next t)) := by
  unfold tick
  cases s.cfg.timeoutMode <;> cases s.cfg.wf <;> cases s.rstLevel <;> simp [eq_comm]
  unfold perform
  cases hr : firstReserved s.rom
  · cases hd : decode s.fetch
    case op i =>
      have : decode s.rstTaken.fetch = .op i := hd
      simp [hr, this, eq_comm]
    case reserved w =>
      have : decode s.rstTaken.fetch = .reserved w := hd
      simp [hr, this]
  · simp [hr]

end Sys2Proof.Machine
end

