-- ==== Sys2Proof/Laws/Exec.lean ====
section
/-! SUPPORT. What each operation can do when it goes on (one inversion lemma each), and running several steps. -/

namespace Sys2Proof.Machine

theorem exec_emit_eq_next {b : Bool} {s t : State} :
    exec (.emit b) s = .next t ↔ ∃ p, p.val = s.ph.val + 1 ∧ t = ((s.setEmit b).record (.emitSet b)).setPh p :=
  advance_eq_next

theorem exec_wait_eq_next {s t : State} : exec .wait s = .next t ↔ ∃ p, p.val = s.ph.val + 1 ∧ t = s.setPh p :=
  advance_eq_next

theorem exec_samp_eq_next {bank : Bank} {ch : Channel} {s t : State} :
    exec (.samp bank ch) s = .next t ↔
      (∃ p v, p.val = s.ph.val + 1 ∧ s.adcAnswer = some v ∧
        t = ((s.adcPolled.setReading bank ch v).record (.adcRead ch v)).setPh p) ∨
      (s.adcAnswer = none ∧ t = s.adcPolled) :=
  blocking_eq_next

theorem exec_canc_eq_next {s t : State} :
    exec .canc s = .next t ↔ ∃ p, p.val = s.ph.val + 1 ∧ t = (s.setCv (cancelAll s.on s.off)).setPh p :=
  advance_eq_next

theorem exec_recv_eq_next {s t : State} :
    exec .recv s = .next t ↔
      (∃ p v, p.val = s.ph.val + 1 ∧ s.serAnswer = some v ∧ t = ((s.serPolled.setBase v).record (.serRecv v)).setPh p) ∨
      (s.serAnswer = none ∧ t = s.serPolled) :=
  blocking_eq_next

theorem exec_clsf_eq_next {s t : State} :
    exec .clsf s = .next t ↔ ∃ p, p.val = s.ph.val + 1 ∧
      t = (s.setClass (patternOf s.cfg s.cv) (classify (patternOf s.cfg s.cv))).setPh p :=
  advance_eq_next

theorem exec_map_eq_next {s t : State} : exec .map s = .next t ↔ ∃ p, p.val = s.ph.val + 1 ∧ t = (mapDrive s).setPh p :=
  advance_eq_next

theorem exec_drv_eq_next {side : Side} {s t : State} :
    exec (.drv side) s = .next t ↔ ∃ p, p.val = s.ph.val + 1 ∧
      t = (s.record (.motWrite side (s.speedOf side))).setPh p :=
  advance_eq_next

theorem exec_dispLabel_eq_next {s t : State} :
    exec .dispLabel s = .next t ↔ ∃ p, p.val = s.ph.val + 1 ∧
      t = (s.record (.dispWrite s.cfg.labelRow (labelText s.lbl))).setPh p :=
  advance_eq_next

theorem exec_dispValues_eq_next {s t : State} :
    exec .dispValues s = .next t ↔ ∃ p, p.val = s.ph.val + 1 ∧
      t = (s.record (.dispWrite s.cfg.valueRow (valueText s.cfg s.cv))).setPh p :=
  advance_eq_next

theorem exec_loop_eq_next {s t : State} : exec .loop s = .next t ↔ t = s.setPh 0 := by
  simp [exec, execLoop, eq_comm]

/-! ### Running -/

theorem run_zero (s : State) : core.run 0 s = .next s := rfl

theorem run_succ_of_next {s t : State} (h : step s = .next t) (n : Nat) : core.run (n + 1) s = core.run n t := by
  have h' : core.step s = .next t := h
  simp [Host.Core.run, h']

/-- An invariant that lets every step go on and that every step keeps lets any number of steps go on. -/
theorem run_of_invariant (I : State → Prop) (keeps : ∀ s t, I s → step s = .next t → I t)
    (goes : ∀ s, I s → ∃ t, step s = .next t) : ∀ (n : Nat) (s : State), I s → ∃ t, core.run n s = .next t ∧ I t := by
  intro n
  induction n with
  | zero => intro s h; exact ⟨s, run_zero s, h⟩
  | succ n ih =>
    intro s h
    obtain ⟨u, hu⟩ := goes s h
    obtain ⟨t, ht, hI⟩ := ih u (keeps s u h hu)
    exact ⟨t, (run_succ_of_next hu n).trans ht, hI⟩

end Sys2Proof.Machine
end

