-- ==== Sys2Proof/Laws/Operands.lean ====
section
/-! SUPPORT. What the arithmetic, the comparator and the text functions compute, said once. -/

namespace Sys2Proof.Machine

/-- The constraints of 00_scope.md R7 the speed and command rules use. -/
theorem wf_bounds {c : Config} (h : c.wf = true) :
    c.spdMin = 0 ∧ c.spdMax = 255 ∧ 1 ≤ c.turnDiv ∧ 1 ≤ c.baseW := by
  simp only [Config.wf, Config.divisorOk, Config.speedRangeOk, Config.commandWidthOk, Bool.and_eq_true, beq_iff_eq,
    decide_eq_true_eq] at h
  obtain ⟨⟨⟨⟨_, hd⟩, hs⟩, hb⟩, _⟩ := h
  exact ⟨hs.1.2, hs.2, hd, hb⟩

/-- A line that fits `DISP_COLS` fits the 16 characters of the port (20_memory.md R61), so `disp_len` is its length. -/
theorem dispLen_toNat {c : Config} (h : c.wf = true) {text : Text} (hl : text.length ≤ c.dispCols) :
    (dispLen text).toNat = text.length ∧ text.length ≤ 16 := by
  simp only [Config.wf, Config.linesOk, Bool.and_eq_true, decide_eq_true_eq] at h
  have h16 : c.dispCols ≤ 16 := h.2.1.1
  rw [dispLen, BitVec.toNat_ofNat]
  omega

/-- `csub` as truncated subtraction. -/
theorem csub_toNat (on off : Byte) : (csub on off).toNat = on.toNat - off.toNat := by
  have := on.isLt
  have := off.isLt
  unfold csub
  rw [BitVec.toNat_ofInt]
  omega

/-- Each of the five differences. -/
theorem cancelAll_getElem (on off : Bank5) (i : Channel) : (cancelAll on off)[i] = csub on[i] off[i] := by
  fin_cases i <;> rfl

/-- With `SPD_MIN` = 0 and `SPD_MAX` = 255 the register holds the clamped speed itself. -/
theorem sat8_toNat {c : Config} (h : c.wf = true) (S : Int) : ((sat8 c S).toNat : Int) = min (max S 0) 255 := by
  obtain ⟨h1, h2, -, -⟩ := wf_bounds h
  unfold sat8 clampSpeed
  rw [h1, h2, BitVec.toNat_ofInt]
  omega

/-- A saturated non-negative speed. -/
theorem sat8_natCast {c : Config} (h : c.wf = true) (n : Nat) : sat8 c n = BitVec.ofNat 8 (min n 255) := by
  apply BitVec.eq_of_toNat_eq
  have := sat8_toNat h n
  simp only [BitVec.toNat_ofNat]
  omega

/-- Five bits listed from the most significant: bit `4 - i` is the i-th. -/
theorem ofBoolListBE_five_getLsbD :
    ∀ (a b c d e : Bool) (i : Channel), (BitVec.ofBoolListBE [a, b, c, d, e]).getLsbD (4 - i.val) = [a, b, c, d, e][i] := by
  decide

/-- The bit of a channel in the pattern (10_state.md R25). -/
theorem patternOf_getLsbD (c : Config) (cv : Bank5) (i : Channel) :
    (patternOf c cv).getLsbD (4 - i.val) = below c cv[i] := by
  unfold patternOf
  rw [ofBoolListBE_five_getLsbD]
  fin_cases i <;> rfl

/-- The pattern depends on nothing but the five comparisons. -/
theorem patternOf_congr {c c' : Config} {cv cv' : Bank5} (h : ∀ i : Channel, below c cv[i] = below c' cv'[i]) :
    patternOf c cv = patternOf c' cv' := by
  have h0 := h 0
  have h1 := h 1
  have h2 := h 2
  have h3 := h 3
  have h4 := h 4
  simp only [Fin.getElem_fin] at h0 h1 h2 h3 h4
  unfold patternOf
  congr 1
  simp only [List.cons.injEq, and_true]
  exact ⟨h0, h1, h2, h3, h4⟩

theorem mapDrive_of_match {s : State} {l r : Int} {lab : Label} (h : speedRule s.cfg s.base s.cat = some (l, r, lab)) :
    mapDrive s = s.setDrive (sat8 s.cfg l) (sat8 s.cfg r) lab := by simp [mapDrive, h]

theorem mapDrive_of_no_match {s : State} (h : speedRule s.cfg s.base s.cat = none) : mapDrive s = s := by
  simp [mapDrive, h]

theorem speedRule_eq_none {c : Config} {base : Nat} {cat : Category} : speedRule c base cat = none ↔ cat = .none := by
  cases cat <;> simp [speedRule]

/-- How many digits a value has. -/
theorem decimal_length : ∀ v : Byte, (decimal v).length = if v.toNat ≤ 9 then 1 else if v.toNat ≤ 99 then 2 else 3 := by
  decide

/-- An expanded field is as long as its width or its digits, whichever is more. -/
theorem fmt_expand_length (v : Byte) (w : Nat) : (fmt .expand v w).length = max w (decimal v).length := by
  simp only [fmt, overflowed, List.length_append, List.length_replicate]
  omega

/-- No field is longer than `Config.fieldMax` allows. -/
theorem fmt_length_le (c : Config) (v : Byte) (w : Nat) : (fmt c.dispOverflow v w).length ≤ c.fieldMax w := by
  have hd := decimal_length v
  have h3 : (decimal v).length ≤ 3 := by rw [hd]; split_ifs <;> omega
  unfold Config.fieldMax fmt overflowed
  cases c.dispOverflow <;> simp only [List.length_append, List.length_replicate, List.length_take, List.length_drop] <;> omega

end Sys2Proof.Machine
end

