-- ==== Sys2Proof/Laws/PerInstr.lean ====
section
/-! SUPPORT. Statements made of every operation, one lemma per constructor of `Instr`. -/

namespace Sys2Proof.Laws.Encoding

/-- The word of an operation is legal, its operation code is one of the ten of 30_encoding.md R92, and an
unused channel field is 0 (R91). -/
def Statement (i : Instr) : Prop :=
  legalWord (encode i) = true ∧ (opcField (encode i)).toNat ∈ [1, 2, 3, 4, 5, 6, 7, 8, 9, 15] ∧
  (chField (encode i) = 0 ∨ ∃ bank ch, i = .samp bank ch ∧ (chField (encode i)).toNat = ch.val)

theorem emit (b : Bool) : Statement (.emit b) := by cases b <;> exact ⟨by decide, by decide, .inl (by decide)⟩
theorem wait : Statement .wait := ⟨by decide, by decide, .inl (by decide)⟩
theorem samp (bank : Bank) (ch : Channel) : Statement (.samp bank ch) := by
  refine ⟨?_, ?_, .inr ⟨bank, ch, rfl, ?_⟩⟩ <;> cases bank <;> revert ch <;> decide
theorem canc : Statement .canc := ⟨by decide, by decide, .inl (by decide)⟩
theorem recv : Statement .recv := ⟨by decide, by decide, .inl (by decide)⟩
theorem clsf : Statement .clsf := ⟨by decide, by decide, .inl (by decide)⟩
theorem map : Statement .map := ⟨by decide, by decide, .inl (by decide)⟩
theorem drv (side : Side) : Statement (.drv side) := by cases side <;> exact ⟨by decide, by decide, .inl (by decide)⟩
theorem dispLabel : Statement .dispLabel := ⟨by decide, by decide, .inl (by decide)⟩
theorem dispValues : Statement .dispValues := ⟨by decide, by decide, .inl (by decide)⟩
theorem loop : Statement .loop := ⟨by decide, by decide, .inl (by decide)⟩

end Sys2Proof.Laws.Encoding
end

