-- ==== Sys2Proof/Laws/Sequence.lean ====
section
/-! SUPPORT. The two step sequences as operations, and the terms of the invariant over them. -/

namespace Sys2Proof.Machine

/-- The operations of the step sequence (30_encoding.md R93, R105). -/
def romOps : RecvPos → List Instr
  | .preClassify =>
    [.emit true, .wait, .samp .on 0, .samp .on 1, .samp .on 2, .samp .on 3, .samp .on 4, .emit false, .wait,
     .samp .off 0, .samp .off 1, .samp .off 2, .samp .off 3, .samp .off 4, .canc, .recv, .clsf, .map, .drv .left,
     .drv .right, .dispLabel, .dispValues, .loop]
  | .cycleStart =>
    [.recv, .emit true, .wait, .samp .on 0, .samp .on 1, .samp .on 2, .samp .on 3, .samp .on 4, .emit false, .wait,
     .samp .off 0, .samp .off 1, .samp .off 2, .samp .off 3, .samp .off 4, .canc, .clsf, .map, .drv .left,
     .drv .right, .dispLabel, .dispValues, .loop]

theorem romOps_length (rp : RecvPos) : (romOps rp).length = 23 := by cases rp <;> rfl

theorem map_decode_stepRom (rp : RecvPos) : (stepRom rp).toList.map decode = (romOps rp).map .op := by
  cases rp <;> decide

/-- The operation at a step. -/
def opAt (rp : RecvPos) (k : Phase) : Instr := (romOps rp)[k.val]'(by rw [romOps_length]; exact k.2)

theorem decode_stepRom (rp : RecvPos) (k : Phase) : decode (stepRom rp)[k] = .op (opAt rp k) := by
  have h := congrArg (fun l => l[k.val]?) (map_decode_stepRom rp)
  have hl := romOps_length rp
  simp only [List.getElem?_map, Vector.getElem?_toList] at h
  simpa [List.getElem?_eq_getElem, hl, eq_comm, opAt] using h

/-- The operations before a step of the same cycle. -/
def opsBefore (rp : RecvPos) (k : Nat) : List Instr := (romOps rp).take k

theorem opsBefore_zero (rp : RecvPos) : opsBefore rp 0 = [] := rfl

theorem opsBefore_succ (rp : RecvPos) (k : Phase) : opsBefore rp (k.val + 1) = opsBefore rp k.val ++ [opAt rp k] := by
  unfold opsBefore opAt
  rw [List.take_succ_eq_append_getElem]

theorem map_decode_take (rp : RecvPos) (n : Nat) :
    ((stepRom rp).toList.take n).map decode = (opsBefore rp n).map .op := by
  rw [List.map_take, map_decode_stepRom, ← List.map_take]
  rfl

theorem performed_eq {s : State} {rp : RecvPos} (h : s.rom = stepRom rp) (i : Instr) :
    performed s i = (opsBefore rp s.ph.val).any (· == i) := by
  have hm : ∀ l : List Byte, (l.any fun w => decode w == .op i) = (l.map decode).any (· == .op i) := by
    intro l
    rw [List.any_map]
    rfl
  unfold performed
  rw [h, hm, map_decode_take, List.any_map]
  congr 1
  funext j
  by_cases hj : j = i <;> simp [hj]

theorem cycleSoFar_eq {s : State} {rp : RecvPos} (h : s.rom = stepRom rp) :
    cycleSoFar s = (opsBefore rp s.ph.val).filterMap (eventOf s) := by
  have hm : ∀ l : List Byte, (l.filterMap fun w => (decode w).instr?.bind (eventOf s)) =
      (l.map decode).filterMap fun d => d.instr?.bind (eventOf s) := by
    intro l
    rw [List.filterMap_map]
    rfl
  unfold cycleSoFar
  rw [h, hm, map_decode_take, List.filterMap_map]
  rfl

/-- A block that holds its own step sequence has no reserved word in it. -/
theorem firstReserved_stepRom (rp : RecvPos) : firstReserved (stepRom rp) = none :=
  firstReserved_eq_none.2 fun k => legalWord_iff.2 ⟨_, decode_stepRom rp k⟩

theorem firstReserved_of_runnable {s : State} (h : Runnable s) : firstReserved s.rom = none :=
  firstReserved_eq_none.2 fun k => legalWord_iff.2 (h.2.2 k)

end Sys2Proof.Machine
end

