-- ==== Sys2Proof/Machine/Listing.lean ====
section
/-! DEFINITION. The spelling of operations (30_encoding.md R102) and the pseudo-operations, which are names for runs of steps
and have no encoding (R103). Nothing in `step` reads these. -/

namespace Sys2Proof.Machine

/-- A channel number as its digit. -/
def channelDigit (ch : Channel) : String :=
  match ch with
  | 0 => "0"
  | 1 => "1"
  | 2 => "2"
  | 3 => "3"
  | 4 => "4"

/-- The mnemonic in capitals, then its operands separated by commas (30_encoding.md R102). -/
def spelling : Instr → String
  | .emit true => "EMIT 1"
  | .emit false => "EMIT 0"
  | .wait => "WAIT"
  | .samp .on ch => "SAMP ON," ++ channelDigit ch
  | .samp .off ch => "SAMP OFF," ++ channelDigit ch
  | .canc => "CANC"
  | .recv => "RECV"
  | .clsf => "CLSF"
  | .map => "MAP"
  | .drv .left => "DRV L"
  | .drv .right => "DRV R"
  | .dispLabel => "DISP LABEL"
  | .dispValues => "DISP VALUES"
  | .loop => "LOOP"

/-- A pseudo-operation (30_encoding.md R103). -/
inductive PseudoOp where
  | acquire
  | sample5On
  | sample5Off
  | decide
  | output
  | cycle
  deriving DecidableEq, Repr

/-- The first and the last step of a pseudo-operation, in the reference sequence (30_encoding.md R103). -/
def pseudoSteps : PseudoOp → Phase × Phase
  | .acquire => (0, 14)
  | .sample5On => (2, 6)
  | .sample5Off => (9, 13)
  | .decide => (15, 17)
  | .output => (18, 21)
  | .cycle => (0, 22)

/-- The words a pseudo-operation stands for. -/
def expansion (o : PseudoOp) : List Byte :=
  ((stepRom .preClassify).toList.take ((pseudoSteps o).2.val + 1)).drop (pseudoSteps o).1.val

end Sys2Proof.Machine
end

