-- ==== Sys2Proof/Tests/Slice0.lean ====
section
/-! SUPPORT. The model's own tests (expected values from spec/95_test_vectors.md and the rules' own examples) and, for every
statement with hypotheses, a named witness that meets them. -/

namespace Sys2Proof.Tests

open Sys2Proof Sys2Proof.Machine

/-! ### Helpers -/

/-- A field of the next state, if there is one. -/
def after {α : Type} (r : Result) (f : State → α) : Option α :=
  match r with
  | .next t => some (f t)
  | .fault _ => none
  | .refused _ => none

/-- The refusal, if the step was refused. -/
def refusalOf (r : Result) : Option Refusal :=
  match r with
  | .next _ => none
  | .fault _ => none
  | .refused w => some w

/-- The reset state standing at step `k`. -/
def at' (k : Phase) : State := { State.reset with ph := k }

/-- Five bytes. -/
def five (a b c d e : Byte) : Bank5 := #v[a, b, c, d, e]

/-- 95_test_vectors.md 2.5: the start triple (7, 9, 4). -/
def mapStart (cat : Category) (base : Nat) : State :=
  { at' 17 with cat := cat, base := base, ls := 7, rs := 9, lbl := .stop }

/-- The same with `BASE_W` = 16. -/
def mapStartWide (cat : Category) (base : Nat) : State :=
  { mapStart cat base with cfg := { Config.reference with baseW := 16 } }

def tripleOf (s : State) : Byte × Byte × BitVec 3 := (s.ls, s.rs, lblCode s.lbl)

/-! ### Configurations: an ill-formed one for each check -/

theorem test_wf_reference : Config.reference.wf = true := by decide
theorem test_wf_wide_command : { Config.reference with baseW := 16, recvPos := .cycleStart }.wf = true := by decide
theorem test_wf_wide_command_reference : { Config.reference with baseW := 16 }.wf = true := by decide
theorem test_wf_refuses_reading_width : { Config.reference with rdW := 9 }.wf = false := by decide
theorem test_wf_refuses_reading_max : { Config.reference with rdMax := 254 }.wf = false := by decide
theorem test_wf_refuses_threshold : { Config.reference with thr := 256 }.wf = false := by decide
theorem test_wf_accepts_threshold_255 : { Config.reference with thr := 255 }.wf = true := by decide
theorem test_wf_refuses_divisor : { Config.reference with turnDiv := 0 }.wf = false := by decide
theorem test_wf_refuses_speed_min : { Config.reference with spdMin := 1 }.wf = false := by decide
theorem test_wf_refuses_speed_max : { Config.reference with spdMax := 256 }.wf = false := by decide
theorem test_wf_refuses_speed_width : { Config.reference with spdW := 9 }.wf = false := by decide
theorem test_wf_refuses_narrow_label_line :
    { Config.reference with dispCols := 9, dispFw := #v[1, 1, 1, 1, 1], dispOverflow := .truncateKeepLast }.wf = false := by decide
theorem test_wf_refuses_command_width : { Config.reference with baseW := 0 }.wf = false := by decide
theorem test_wf_refuses_narrow_display : { Config.reference with dispCols := 14 }.wf = false := by decide
theorem test_wf_refuses_wide_display : { Config.reference with dispCols := 17 }.wf = false := by decide
theorem test_wf_refuses_wide_fields : { Config.reference with dispFw := #v[4, 4, 4, 3, 2] }.wf = false := by decide

/-! ### Decoding: words from 95_test_vectors.md 2.7 and 30_encoding.md R94 -/

theorem test_decode_acquisition :
    [0x18, 0x10, 0x20, 0x3A, 0x34, 0x40].map decode =
      [.op (.emit true), .op (.emit false), .op .wait, .op (.samp .on 2), .op (.samp .off 4), .op .canc] := by decide
theorem test_decode_classifier : [0x50, 0x60].map decode = [.op .recv, .op .clsf] := by decide
theorem test_decode_mapper : [0x70, 0x80, 0x88].map decode = [.op .map, .op (.drv .left), .op (.drv .right)] := by decide
theorem test_decode_display_loop :
    [0x90, 0x98, 0xF0].map decode = [.op .dispLabel, .op .dispValues, .op .loop] := by decide
theorem test_decode_reserved :
    [0x00, 0x11, 0x28, 0x35, 0x3F, 0x41, 0xA0, 0xE0, 0xF8, 0x81, 0xFF].map (fun w => legalWord w) =
      List.replicate 11 false := by decide
theorem test_decode_reserved_classes :
    [0x00, 0x11, 0x28, 0x35].map decode =
      [.reserved .opcode, .reserved .channelUnused, .reserved .selectorUnused, .reserved .channelRange] := by decide
theorem test_table_word_samp : decodeTableWord 8 0x3C = some (.samp .on 4) := by decide
theorem test_table_word_loop : decodeTableWord 8 0xF0 = some .loop := by decide
theorem test_spelling_of_samp : spelling (.samp .on 3) = "SAMP ON,3" := by decide
theorem test_decide_expands : expansion .decide = [0x50, 0x60, 0x70] := by decide

/-! ### The shared functions: 95_test_vectors.md part 2 -/

theorem test_csub :
    [csub 0 0, csub 255 0, csub 0 255, csub 100 130, csub 77 77, csub 200 80, csub 180 61, csub 1 0] =
      [0, 255, 0, 0, 0, 120, 119, 1] := by decide
theorem test_below :
    [0, 119, 120, 121, 255].map (below Config.reference) = [true, true, false, false, false] := by decide
theorem test_classify_values :
    [five 200 60 50 119 200, five 255 255 119 255 255, five 255 255 120 255 255, five 50 50 200 200 200,
     five 200 50 200 200 200, five 0 0 0 0 0].map (fun v => catCode (classify (patternOf Config.reference v))) =
      [2, 1, 5, 0, 0, 0] := by decide
theorem test_sat8 :
    [-300, -1, 0, 255, 256].map (sat8 Config.reference) = [0, 0, 0, 255, 255] := by decide
theorem test_value_text_scenario_A :
    valueText Config.reference (five 200 200 50 200 200) = "200200 50200200".toList := by decide
theorem test_value_text_mixed : valueText Config.reference (five 7 42 100 9 99) = "  7 42100  999".toList := by decide
theorem test_value_text_zero : valueText Config.reference (five 0 0 0 0 0) = "  0  0  0  0 0".toList := by decide

/-! ### One step of each operation -/

theorem test_emit_on : after (step (at' 0)) (fun t => (t.emit, t.ph, t.events)) = some (true, 1, [.emitSet true]) := by decide
theorem test_emit_off : after (step { at' 7 with emit := true }) (fun t => (t.emit, t.ph)) = some (false, 8) := by decide
theorem test_wait : after (step { at' 1 with emit := true }) (fun t => (t.emit, t.ph, t.events)) = some (true, 2, []) := by
  decide
theorem test_samp_on : after (step { at' 4 with adcIn := [some 50] }) (fun t => (t.on, t.off, t.ph, t.events)) =
    some (five 0 0 50 0 0, five 0 0 0 0 0, 5, [.adcRead 2 50]) := by decide
theorem test_samp_off_holds : after (step { at' 11 with adcIn := [none, some 9] })
    (fun t => (t.off, t.ph, t.events, t.adcIn)) = some (five 0 0 0 0 0, 11, [], [some 9]) := by decide
theorem test_canc : after (step { at' 14 with on := five 250 255 200 180 100, off := five 100 50 80 60 130 })
    (fun t => (t.cv, t.ph)) = some (five 150 205 120 120 0, 15) := by decide
theorem test_recv : after (step { at' 15 with serIn := [some 120] }) (fun t => (t.base, t.ph, t.events)) =
    some (120, 16, [.serRecv 120]) := by decide
theorem test_recv_byte_wide : after (step { at' 15 with serIn := [some 256] }) (fun t => t.base) = some 0 := by decide
theorem test_clsf_forward : after (step { at' 16 with cv := five 200 200 50 200 200 })
    (fun t => (t.pat, catCode t.cat, t.ph)) = some (0b00100, 1, 17) := by decide
theorem test_clsf_left : after (step { at' 16 with cv := five 50 200 200 200 200 })
    (fun t => (t.pat, catCode t.cat)) = some (0b10000, 3) := by decide
theorem test_map_vectors :
    [mapStart .fwdNarrow 100, mapStart .fwdWide 255, mapStart .left 120, mapStart .left 5, mapStart .right 90,
     mapStart .right 255, mapStart .stop 150, mapStart .none 200].map (fun s => after (step s) tripleOf) =
      [some (100, 100, 1), some (255, 255, 1), some (20, 120, 2), some (0, 5, 2), some (90, 15, 3), some (255, 42, 3),
       some (0, 0, 4), some (7, 9, 4)] := by decide
theorem test_map_wide_vectors :
    [mapStartWide .left 600, mapStartWide .left 2000, mapStartWide .fwdNarrow 256, mapStartWide .right 1529].map
      (fun s => after (step s) tripleOf) =
      [some (100, 255, 2), some (255, 255, 2), some (255, 255, 1), some (255, 254, 3)] := by decide
theorem test_drv_left : after (step { at' 18 with ls := 20, rs := 120 }) (fun t => (t.ph, t.events)) =
    some (19, [.motWrite .left 20]) := by decide
theorem test_drv_right : after (step { at' 19 with ls := 20, rs := 120 }) (fun t => (t.ph, t.events)) =
    some (20, [.motWrite .right 120]) := by decide
theorem test_disp_label : after (step { at' 20 with lbl := .forward }) (fun t => (t.ph, t.events)) =
    some (21, [.dispWrite 0 "Forward".toList]) := by decide
theorem test_disp_values : after (step { at' 21 with cv := five 150 205 120 120 0 }) (fun t => t.events) =
    some [.dispWrite 1 "150205120120 0".toList] := by decide
theorem test_loop : after (step { at' 22 with ls := 20, rs := 120, lbl := .turnLeft }) (fun t => (t.ph, tripleOf t)) =
    some (0, 20, 120, 2) := by decide
theorem test_rst : after (step { at' 4 with emit := true, ls := 9, rstIn := [true, false], adcIn := [some 1] })
    (fun t => ((t.emit, t.ls, t.ph), t.events, t.adcIn)) = some ((false, 0, 0), [], [some 1]) := by decide
theorem test_reserved_rom_refused :
    refusalOf (step { at' 0 with rom := (stepRom .preClassify).set 22 0x00 }) = some (.reservedWord 0x00) := by decide
theorem test_fetch_word_runs : after (step (State.reset.withFetchWord 8 0xF0)) (fun t => t.ph) = some 0 := by decide

/-! ### States that meet the invariant, one at each blocking kind of step and one after MAP -/

/-- At `SAMP ON,0` of a first cycle. -/
def atSampOn : State := { at' 2 with emit := true, events := [.emitSet true] }

/-- At `SAMP OFF,0` of a first cycle whose lit readings were all 200. -/
def atSampOff : State :=
  { at' 9 with
    on := five 200 200 200 200 200
    events := [.emitSet true, .adcRead 0 200, .adcRead 1 200, .adcRead 2 200, .adcRead 3 200, .adcRead 4 200, .emitSet false] }

/-- The twelve acquisition events of Scenario A (95_test_vectors.md Program 1). -/
def scenarioA : List Event :=
  [.emitSet true, .adcRead 0 200, .adcRead 1 200, .adcRead 2 50, .adcRead 3 200, .adcRead 4 200, .emitSet false,
   .adcRead 0 0, .adcRead 1 0, .adcRead 2 0, .adcRead 3 0, .adcRead 4 0]

/-- At `RECV` in Scenario A. -/
def atRecv : State :=
  { at' 15 with on := five 200 200 50 200 200, cv := five 200 200 50 200 200, events := scenarioA }

/-- At `DRV L` in Scenario A. -/
def atDrv : State :=
  { atRecv with
    ph := 18, base := 100, pat := 0b00100, cat := .fwdNarrow, ls := 100, rs := 100, lbl := .forward
    events := scenarioA ++ [.serRecv 100] }

theorem atSampOn_inv : Inv atSampOn :=
  ⟨by decide, by decide, by decide, by decide, by decide, by decide, fun h => absurd h (by decide), [], by decide⟩
theorem atSampOff_inv : Inv atSampOff :=
  ⟨by decide, by decide, by decide, by decide, by decide, by decide, fun h => absurd h (by decide), [], by decide⟩
theorem atRecv_inv : Inv atRecv :=
  ⟨by decide, by decide, by decide, by decide, by decide, by decide, fun h => absurd h (by decide), [], by decide⟩
theorem atDrv_inv : Inv atDrv := by
  refine ⟨by decide, by decide, by decide, by decide, by decide, by decide, fun _ l r lab h => ?_, [], by decide⟩
  have h' : some ((100 : Int), (100 : Int), Label.forward) = some (l, r, lab) := h
  cases h'
  decide

theorem reset_runnable : Runnable State.reset :=
  ⟨by decide, rfl, fun k => ⟨_, decode_stepRom .preClassify k⟩⟩

theorem at'_runnable (k : Phase) : Runnable (at' k) := reset_runnable

/-! ### Witnesses: a state and operands that meet all hypotheses of a statement together -/

theorem witness_AssertedRstResetsEveryRegister :
    ∃ (s : State) (rest : List Bool), s.cfg.wf = true ∧ s.cfg.timeoutMode = false ∧ s.rstIn = true :: rest :=
  ⟨{ at' 4 with rstIn := [true, false] }, [false], by decide, rfl, rfl⟩

theorem witness_StepPerformsTheDecodedOperation :
    ∃ (s : State) (i : Instr), Runnable s ∧ s.rstLevel = false ∧ decode s.rom[s.ph] = .op i :=
  ⟨State.reset, .emit true, reset_runnable, rfl, by decide⟩

theorem witness_StepAdvancesPhase_hold :
    ∃ (s t : State) (i : Instr), s.rstLevel = false ∧ decode s.rom[s.ph] = .op i ∧ step s = .next t ∧ Holds s i :=
  ⟨{ at' 2 with adcIn := [none] }, _, .samp .on 0, rfl, by decide, rfl, rfl⟩

theorem witness_StepAdvancesPhase_loop :
    ∃ (s t : State), s.rstLevel = false ∧ decode s.rom[s.ph] = .op .loop ∧ step s = .next t :=
  ⟨at' 22, _, rfl, by decide, rfl⟩

theorem witness_StepAdvancesPhase_last_advance :
    ∃ (s t : State) (i : Instr), s.ph.val = 21 ∧ s.rstLevel = false ∧ decode s.rom[s.ph] = .op i ∧ step s = .next t ∧
      ¬ Holds s i ∧ i ≠ .loop :=
  ⟨at' 21, _, .dispValues, rfl, rfl, by decide, rfl, id, by decide⟩

theorem witness_ReservedWordsAreRefused :
    ∃ (s : State) (k : Phase) (why : ReservedWhy), s.cfg.wf = true ∧ s.cfg.timeoutMode = false ∧ s.rstLevel = false ∧
      decode s.rom[k] = .reserved why :=
  ⟨{ at' 0 with rom := (stepRom .preClassify).set 22 0x3F }, 22, .channelRange, by decide, rfl, rfl, by decide⟩

theorem witness_ConfigurationsWithoutMeaningAreRefused_timeout : ∃ s : State, s.cfg.timeoutMode = true :=
  ⟨State.resetOf { Config.reference with timeoutMode := true }, rfl⟩

theorem witness_ConfigurationsWithoutMeaningAreRefused_constraints :
    ∃ a b c d e : State,
      (a.cfg.timeoutMode = false ∧ a.cfg.rdMax < a.cfg.thr) ∧ (b.cfg.timeoutMode = false ∧ b.cfg.turnDiv = 0) ∧
      (c.cfg.timeoutMode = false ∧ c.cfg.spdMin ≠ 0) ∧
      (d.cfg.timeoutMode = false ∧ d.cfg.spdMax ≠ 2 ^ d.cfg.spdW - 1) ∧ (e.cfg.timeoutMode = false ∧ e.cfg.baseW = 0) :=
  ⟨State.resetOf { Config.reference with thr := 256 }, State.resetOf { Config.reference with turnDiv := 0 },
   State.resetOf { Config.reference with spdMin := -1 }, State.resetOf { Config.reference with spdMax := 254 },
   State.resetOf { Config.reference with baseW := 0 }, ⟨rfl, by decide⟩, ⟨rfl, rfl⟩, ⟨rfl, by decide⟩,
   ⟨rfl, by norm_num [State.resetOf, Config.reference]⟩, ⟨rfl, rfl⟩⟩

theorem witness_OnlyLoopLeavesTheLastStep : ∃ (s : State) (i : Instr), s.ph.val = 22 ∧ i ≠ .loop ∧ ¬ Holds s i :=
  ⟨{ at' 22 with serIn := [some 3] }, .recv, rfl, by decide, by show ¬ (_ = none); simp [State.serAnswer]⟩

theorem witness_EncodeOfDecode : ∃ (w w' : Byte) (i : Instr), decode w = .op i ∧ decode w' = .op i :=
  ⟨0x3C, 0x3C, .samp .on 4, by decide, by decide⟩

/-- For EmitDrivesTheEmitter, WaitOnlyAdvances, CancComputesTheFiveDifferences, ClsfComparesAndClassifies,
DrvHandsOverOneSpeed, DispLabelWritesTheLabelRow and DispValuesWritesTheValueRow: the first and the last step from which
`PH` can advance. -/
theorem witness_PhaseHasSuccessor :
    (∃ (s : State) (p : Phase), s.ph.val = 0 ∧ p.val = s.ph.val + 1) ∧
    (∃ (s : State) (p : Phase), s.ph.val = 21 ∧ p.val = s.ph.val + 1) :=
  ⟨⟨at' 0, 1, rfl, rfl⟩, ⟨at' 21, 22, rfl, rfl⟩⟩

theorem witness_SampTakesTheReading :
    (∃ (s : State) (p : Phase), p.val = s.ph.val + 1 ∧ s.adcAnswer = some 0) ∧
    (∃ (s : State) (p : Phase), p.val = s.ph.val + 1 ∧ s.adcAnswer = some 255) :=
  ⟨⟨{ at' 2 with adcIn := [some 0] }, 3, rfl, rfl⟩, ⟨{ at' 13 with adcIn := [some 255] }, 14, rfl, rfl⟩⟩

theorem witness_UnansweredSampHolds :
    ∃ (n : Nat) (s : State) (bank : Bank) (ch : Channel) (rest : List (Option Byte)),
      0 < n ∧ Runnable s ∧ s.rstIn = [] ∧ decode s.rom[s.ph] = .op (.samp bank ch) ∧
      s.adcIn = List.replicate n none ++ rest :=
  ⟨3, { at' 11 with adcIn := [none, none, none, some 7] }, .off, 2, [some 7], by decide, at'_runnable 11, rfl,
   by decide, rfl⟩

theorem witness_CancelledValueRange :
    (∃ on off : Byte, on.toNat ≤ off.toNat ∧ off.toNat ≤ on.toNat) ∧ (∃ on off : Byte, on.toNat < off.toNat) ∧
    (∃ on off : Byte, off.toNat < on.toNat) ∧ ∃ c : Config, 0 < c.thr :=
  ⟨⟨77, 77, by decide, by decide⟩, ⟨0, 255, by decide⟩, ⟨255, 0, by decide⟩, ⟨Config.reference, by decide⟩⟩

theorem witness_RecvTakesTheCommandOrHolds :
    (∃ (s : State) (p : Phase), p.val = s.ph.val + 1 ∧ s.serAnswer = some 255) ∧
    ∃ s : State, s.serAnswer = none :=
  ⟨⟨{ at' 15 with serIn := [some 255] }, 16, rfl, by decide⟩, ⟨{ at' 15 with serIn := [none] }, rfl⟩⟩

theorem witness_UnansweredRecvHolds :
    ∃ (n : Nat) (s : State) (rest : List (Option Nat)),
      0 < n ∧ Runnable s ∧ s.rstIn = [] ∧ decode s.rom[s.ph] = .op .recv ∧
      s.serIn = List.replicate n none ++ rest :=
  ⟨2, { at' 15 with serIn := [none, none] }, [], by decide, at'_runnable 15, rfl, by decide, rfl⟩

theorem witness_ClassifierSeesComparisonsOnly :
    ∃ s s' t t' : State, s.cv ≠ s'.cv ∧ (∀ i : Channel, s.cv[i].toNat < s.cfg.thr ↔ s'.cv[i].toNat < s'.cfg.thr) ∧
      exec .clsf s = .next t ∧ exec .clsf s' = .next t' :=
  ⟨{ at' 16 with cv := five 119 120 120 120 120 }, { at' 16 with cv := five 0 255 255 255 255 }, _, _, by decide, by decide,
   rfl, rfl⟩

theorem witness_MapWritesTheDriveOutput :
    ∀ cat : Category, ∃ (s : State) (p : Phase), s.cat = cat ∧ s.base = 600 ∧ s.cfg.wf = true ∧ p.val = s.ph.val + 1 :=
  fun cat => ⟨mapStartWide cat 600, 18, rfl, rfl, test_wf_wide_command_reference, rfl⟩

theorem witness_TurnDivisionDiscardsTheRemainder_and_DisplayLinesFit : ∃ c : Config, c.wf = true :=
  ⟨Config.reference, by decide⟩

theorem witness_SaturationLaw :
    ∃ c : Config, c.wf = true ∧ (∃ S : Int, 0 ≤ S ∧ S ≤ 255) ∧ (∃ S : Int, S < 0) ∧ ∃ S : Int, 255 < S :=
  ⟨Config.reference, by decide, ⟨255, by decide, by decide⟩, ⟨-1, by decide⟩, ⟨256, by decide⟩⟩

theorem witness_UnmatchedCyclesRetainTheTriple :
    ∃ (c : Config) (xs : List CycleInput), xs ≠ [] ∧ ∀ x ∈ xs, x.category c = .none :=
  ⟨Config.reference, [⟨five 50 50 50 50 50, five 0 0 0 0 0, 77⟩, ⟨five 50 50 200 200 200, five 0 0 0 0 0, 200⟩],
   by decide, by decide⟩

theorem witness_RepeatedCycleGivesTheSameOutput :
    ∃ (c : Config) (x x' : CycleInput), x ≠ x' ∧
      (∀ i : Channel, x.cancelled[i].toNat < c.thr ↔ x'.cancelled[i].toNat < c.thr) ∧ x.base = x'.base :=
  ⟨Config.reference, ⟨five 50 200 200 200 200, five 0 0 0 0 0, 120⟩, ⟨five 10 120 120 120 120, five 20 0 0 0 0, 120⟩,
   by decide, by decide, rfl⟩

theorem witness_EachRegisterHasItsWriters_and_LabelCarriesNoControl :
    ∃ (i : Instr) (s t : State), exec i s = .next t ∧ t.ls ≠ s.ls :=
  ⟨.map, mapStart .left 120, _, rfl, by decide⟩

theorem witness_StepKeepsRomAndConstants : ∃ s t : State, step s = .next t := ⟨State.reset, _, rfl⟩

theorem witness_EachOperationRecordsItsEvent :
    (∃ (s t : State), exec (.samp .on 4) s = .next t ∧ Holds s (.samp .on 4)) ∧
    (∃ (s t : State), exec (.samp .off 0) s = .next t ∧ s.adcAnswer = some 0) ∧
    (∃ (s t : State), exec .recv s = .next t ∧ s.serAnswer = some 255) :=
  ⟨⟨{ at' 6 with adcIn := [none] }, _, rfl, rfl⟩, ⟨{ at' 9 with adcIn := [some 0] }, _, rfl, rfl⟩,
   ⟨{ at' 15 with serIn := [some 255] }, _, rfl, by decide⟩⟩

theorem witness_EachOperationRecordsItsEvent_others :
    ∀ i ∈ [Instr.emit true, .wait, .canc, .clsf, .map, .drv .left, .drv .right, .dispLabel, .dispValues, .loop],
      ∃ s t : State, exec i s = .next t := by
  intro i hi
  fin_cases hi <;> exact ⟨at' 3, _, rfl⟩

theorem witness_EveryOperationCompletesOrHolds :
    (∃ (i : Instr) (s : State), i ≠ .loop ∧ s.ph.val = 21 ∧ (s.ph.val < 22 ∨ i = .loop ∨ Holds s i)) ∧
    (∃ (i : Instr) (s : State), i = .loop ∧ s.ph.val = 22 ∧ (s.ph.val < 22 ∨ i = .loop ∨ Holds s i)) ∧
    ∃ (i : Instr) (s : State), i = .recv ∧ s.ph.val = 22 ∧ (s.ph.val < 22 ∨ i = .loop ∨ Holds s i) :=
  ⟨⟨.clsf, at' 21, by decide, rfl, .inl (by decide)⟩, ⟨.loop, at' 22, rfl, rfl, .inr (.inl rfl)⟩,
   ⟨.recv, { at' 22 with serIn := [none] }, rfl, rfl, .inr (.inr rfl)⟩⟩

theorem witness_ResetMeetsTheInvariant : ∃ c : Config, c.wf = true ∧ c.timeoutMode = false ∧ c.recvPos = .cycleStart :=
  ⟨{ Config.reference with recvPos := .cycleStart }, by decide, rfl, rfl⟩

theorem witness_StepKeepsTheInvariant : ∃ s t : State, Inv s ∧ step s = .next t ∧ s.ph.val = 18 :=
  ⟨atDrv, _, atDrv_inv, rfl, rfl⟩

theorem witness_TheBlockRunsForEver : ∃ s : State, Inv s := ⟨atDrv, atDrv_inv⟩

theorem witness_CycleIsTheCycleFunction :
    ∀ rp : RecvPos, ∃ (s : State) (x : CycleInput) (adcRest : List (Option Byte)) (serRest : List (Option Nat)),
      s.cfg.recvPos = rp ∧ s.cfg.wf = true ∧ s.cfg.timeoutMode = false ∧ s.rom = stepRom s.cfg.recvPos ∧ s.rstIn = [] ∧
      s.ph = 0 ∧ s.adcIn = (x.on.toList ++ x.off.toList).map some ++ adcRest ∧ s.serIn = some x.base :: serRest ∧
      x.base < 2 ^ s.cfg.baseW := by
  intro rp
  refine ⟨{ State.resetOf { Config.reference with recvPos := rp } with
      adcIn := ([200, 200, 50, 200, 200, 0, 0, 0, 0, 0] : List Byte).map some, serIn := [some 100] },
    ⟨five 200 200 50 200 200, five 0 0 0 0 0, 100⟩, [], [], rfl, ?_, rfl, rfl, rfl, rfl, rfl, rfl, ?_⟩
  · cases rp <;> decide
  · show 100 < 2 ^ 8
    decide

theorem witness_EmitterLevelAtBlockingSteps :
    (∃ s : State, Inv s ∧ decode s.rom[s.ph] = .op (.samp .on 0)) ∧
    (∃ s : State, Inv s ∧ decode s.rom[s.ph] = .op (.samp .off 0)) ∧
    (∃ s : State, Inv s ∧ decode s.rom[s.ph] = .op .recv) :=
  ⟨⟨atSampOn, atSampOn_inv, by decide⟩, ⟨atSampOff, atSampOff_inv, by decide⟩, ⟨atRecv, atRecv_inv, by decide⟩⟩

theorem witness_EmitterLevelAtBlockingSteps_boundary : ∃ s : State, Inv s ∧ s.ph = 0 :=
  ⟨{ at' 0 with ls := 20, rs := 120, lbl := .turnLeft, events := scenarioA },
   ⟨by decide, by decide, by decide, by decide, by decide, by decide, fun h => absurd h (by decide), scenarioA, by decide⟩,
   rfl⟩

theorem witness_PortsFollowTheOperation :
    (∃ s : State, s.rstLevel = true) ∧
    ∃ (s : State) (i : Instr), s.rstLevel = false ∧ decode s.rom[s.ph] = .op i ∧ i = .samp .on 4 :=
  ⟨⟨{ at' 2 with rstIn := [true] }, rfl⟩, ⟨at' 6, .samp .on 4, rfl, by decide, rfl⟩⟩

theorem witness_ErrorConditionsOfOneStepAndTheirEffects :
    (∃ s t : State, meetsCondition s (.samp .on 0) .hangWait = true ∧ exec (.samp .on 0) s = .next t) ∧
    (∃ s t : State, meetsCondition s .recv .hangWait = true ∧ exec .recv s = .next t) ∧
    (∃ s t : State, meetsCondition s .map .unclassified = true ∧ exec .map s = .next t) ∧
    (∃ s t : State, s.cfg.wf = true ∧ meetsCondition s .map .outOfRange = true ∧ exec .map s = .next t) :=
  ⟨⟨{ at' 2 with adcIn := [none] }, _, rfl, rfl⟩, ⟨{ at' 15 with serIn := [none] }, _, rfl, rfl⟩,
   ⟨mapStart .none 5, _, by decide, rfl⟩,
   ⟨mapStartWide .right 256, _, by decide, by decide, rfl⟩⟩

end Sys2Proof.Tests
end

section
/-! PROOFS. The statements of 00_scope.md: which configurations a step refuses, and as what. -/

namespace Sys2Proof.Machine

/-- The Timeout mode is named first, whatever else the configuration or `rst` says (60_exceptions.md R219). -/
theorem step_refused_of_timeoutMode {s : State} (ht : s.cfg.timeoutMode = true) : step s = .refused .timeoutMode :=
  if_pos ht

theorem step_refused_of_not_wf {s : State} (ht : s.cfg.timeoutMode = false) (hw : ¬ s.cfg.wf = true) :
    step s = .refused .illFormedConfig := by
  calc step s
    _ = if s.cfg.wf then if s.rstLevel then .next s.rstTaken.assertReset else perform s.rstTaken
        else .refused .illFormedConfig := if_neg (by simp [ht])
    _ = .refused .illFormedConfig := if_neg hw

theorem thr_le_rdMax_of_wf {c : Config} (h : c.wf = true) : c.thr ≤ c.rdMax := by
  simp only [Config.wf, Config.thresholdOk, Bool.and_eq_true, decide_eq_true_eq] at h
  obtain ⟨⟨⟨⟨⟨-, hthr⟩, -⟩, -⟩, -⟩, -⟩ := h
  exact hthr

theorem spdW_of_wf {c : Config} (h : c.wf = true) : c.spdW = 8 := by
  simp only [Config.wf, Config.speedRangeOk, Bool.and_eq_true, beq_iff_eq] at h
  obtain ⟨⟨⟨_, ⟨hw, -⟩, -⟩, -⟩, -⟩ := h
  exact hw

/-- A configuration that breaks a constraint of 00_scope.md R7 is not well formed: `wf` asks for each of the five. -/
theorem not_wf_of_broken_constraint {c : Config}
    (hc : c.rdMax < c.thr ∨ c.turnDiv = 0 ∨ c.spdMin ≠ 0 ∨ c.spdMax ≠ 2 ^ c.spdW - 1 ∨ c.baseW = 0) :
    ¬ c.wf = true := by
  intro hw
  obtain ⟨hmin, hmax, hdiv, hbase⟩ := wf_bounds hw
  rcases hc with hthr | hdiv0 | hmin0 | hmaxW | hbase0
  · exact absurd (thr_le_rdMax_of_wf hw) (Nat.not_le.2 hthr)
  · omega
  · exact hmin0 hmin
  · exact hmaxW (by rw [hmax, spdW_of_wf hw]; norm_num)
  · omega

/-- Settles O6: the Timeout mode is tested first, and each broken constraint contradicts `wf`. -/
theorem configurationsWithoutMeaningAreRefused : Obligations.ConfigurationsWithoutMeaningAreRefused :=
  ⟨fun _ ht => step_refused_of_timeoutMode ht,
   fun _ ht hc => step_refused_of_not_wf ht (not_wf_of_broken_constraint hc)⟩

end Sys2Proof.Machine
end

section
/-! PROOFS. The statements of 10_state.md: the registers after reset, their writers, the last step, and what the label
does not reach. -/

namespace Sys2Proof.Machine

/-! ### Reset -/

/-- Settles O1: every register of the reference block resets to a literal; the reset triple is the configuration's. -/
theorem resetRegisterValues : Obligations.ResetRegisterValues :=
  ⟨by decide, rfl, rfl, rfl, rfl, rfl, rfl, rfl, rfl, rfl, fun _ => ⟨rfl, rfl, rfl, rfl⟩⟩

/-- At a cycle boundary no operation of the cycle has been performed. -/
theorem performed_of_boundary {s : State} (h : s.ph = 0) (i : Instr) : performed s i = false := by
  simp [performed, h]

theorem cycleSoFar_of_boundary {s : State} (h : s.ph = 0) : cycleSoFar s = [] := by
  simp [cycleSoFar, h]

/-- At a cycle boundary the invariant's clauses on the current cycle ask for nothing but a dark emitter. -/
theorem inv_of_boundary {s : State} (hph : s.ph = 0) (hcfg : s.cfg.wf = true ∧ s.cfg.timeoutMode = false)
    (hrom : s.rom = stepRom s.cfg.recvPos) (hemit : s.emit = false) (hbase : s.base < 2 ^ s.cfg.baseW) : Inv s where
  config := hcfg
  rom := hrom
  emitter := by simp [hemit, performed_of_boundary hph]
  command := hbase
  cancelled h := by simp [performed_of_boundary hph] at h
  classified h := by simp [performed_of_boundary hph] at h
  mapped h := by simp [performed_of_boundary hph] at h
  history := ⟨s.events, by simp [cycleSoFar_of_boundary hph]⟩

theorem resetOf_inv {c : Config} (hw : c.wf = true) (ht : c.timeoutMode = false) : Inv (State.resetOf c) :=
  inv_of_boundary rfl ⟨hw, ht⟩ rfl rfl (Nat.two_pow_pos c.baseW)

/-- Settles O38: reset stands at a cycle boundary with the emitter dark and `BASE` 0. -/
theorem resetMeetsTheInvariant : Obligations.ResetMeetsTheInvariant :=
  ⟨resetOf_inv (by decide) rfl, fun _ hw ht => resetOf_inv hw ht⟩

/-! ### The last step -/

theorem complete_of_last {s : State} (h : s.ph = 22) (after : Phase → State) :
    complete s after = .refused .phaseOverrun := by
  simp [complete, nextPhase_eq_none.2 h]

theorem advance_of_last {s : State} (h : s.ph = 22) (t : State) : advance s t = .refused .phaseOverrun :=
  complete_of_last h _

/-- An answered transaction cannot complete at step 22. -/
theorem blocking_of_last {α : Type} {s held : State} {answer : Option α} {done : α → State} (h : s.ph = 22)
    (ha : answer ≠ none) : blocking s answer held done = .refused .phaseOverrun := by
  obtain ⟨v, rfl⟩ := Option.ne_none_iff_exists'.1 ha
  simp [blocking, nextPhase_eq_none.2 h]

/-- Settles O7: every operation but LOOP ends by `advance` or, answered, by `blocking`, and step 22 has no successor. -/
theorem onlyLoopLeavesTheLastStep : Obligations.OnlyLoopLeavesTheLastStep := by
  intro s i h22 hloop hholds
  have hph : s.ph = 22 := Fin.ext h22
  cases i with
  | samp bank ch => exact blocking_of_last hph hholds
  | recv => exact blocking_of_last hph hholds
  | loop => exact absurd rfl hloop
  | emit _ | wait | canc | clsf | map | drv _ | dispLabel | dispValues => exact advance_of_last hph _

/-! ### Who writes what -/

/-- MAP without a category assigns nothing (42_drive_mapper.md R164). -/
theorem mapDrive_of_cat_none {s : State} (h : s.cat = .none) : mapDrive s = s :=
  mapDrive_of_no_match (speedRule_eq_none.2 h)

/-- Settles O34: the inversion lemma of each operation names the next state, whose other fields are those of `s`. -/
theorem eachRegisterHasItsWriters : Obligations.EachRegisterHasItsWriters := by
  intro i s t h
  cases i with
  | emit b => obtain ⟨p, -, rfl⟩ := exec_emit_eq_next.1 h; simp
  | wait => obtain ⟨p, -, rfl⟩ := exec_wait_eq_next.1 h; simp
  | samp bank ch =>
    obtain ⟨p, v, -, -, rfl⟩ | ⟨-, rfl⟩ := exec_samp_eq_next.1 h
    · cases bank <;> simp
    · simp
  | canc => obtain ⟨p, -, rfl⟩ := exec_canc_eq_next.1 h; simp
  | recv => obtain ⟨p, v, -, -, rfl⟩ | ⟨-, rfl⟩ := exec_recv_eq_next.1 h <;> simp
  | clsf => obtain ⟨p, -, rfl⟩ := exec_clsf_eq_next.1 h; simp
  | map =>
    obtain ⟨p, -, rfl⟩ := exec_map_eq_next.1 h
    by_cases hcat : s.cat = .none
    · simp [mapDrive_of_cat_none hcat]
    · simp [hcat]
  | drv side => obtain ⟨p, -, rfl⟩ := exec_drv_eq_next.1 h; simp
  | dispLabel => obtain ⟨p, -, rfl⟩ := exec_dispLabel_eq_next.1 h; simp
  | dispValues => obtain ⟨p, -, rfl⟩ := exec_dispValues_eq_next.1 h; simp
  | loop => obtain rfl := exec_loop_eq_next.1 h; simp

/-- No operation writes the ROM, the constants or the levels of `rst`. -/
theorem exec_keeps_rom_cfg_rstIn {i : Instr} {s t : State} (h : exec i s = .next t) :
    t.rom = s.rom ∧ t.cfg = s.cfg ∧ t.rstIn = s.rstIn := by
  obtain ⟨-, -, -, -, -, -, -, -, -, hkept⟩ := eachRegisterHasItsWriters i s t h
  exact hkept

/-! ### The label -/

/-- `s` with another label. -/
def State.relabel (s : State) (l : Label) : State := { s with lbl := l }

/-- An operation ended by `advance` looks at `PH` alone, which another label leaves. -/
theorem advance_relabel {s e t : State} (h : advance s e = .next t) (l l' : Label) :
    advance (s.relabel l) (e.relabel l') = .next (t.relabel l') := by
  obtain ⟨p, hp, rfl⟩ := advance_eq_next.1 h
  exact advance_of_succ hp _

/-- MAP does not look at the label before; the label after is the category's, or the one before. -/
theorem mapDrive_relabel (s : State) (l : Label) : ∃ l', mapDrive (s.relabel l) = (mapDrive s).relabel l' := by
  cases h : speedRule s.cfg s.base s.cat with
  | none =>
    refine ⟨l, ?_⟩
    rw [mapDrive_of_no_match h, mapDrive_of_no_match (s := s.relabel l) h]
  | some rule =>
    obtain ⟨ls, rs, lab⟩ := rule
    refine ⟨lab, ?_⟩
    rw [mapDrive_of_match h, mapDrive_of_match (s := s.relabel l) h]
    rfl

/-- Settles O44: only MAP writes `LBL`, from the category, and only DISP LABEL reads it, into its event. -/
theorem labelCarriesNoControl : Obligations.LabelCarriesNoControl := by
  intro i s t l h
  cases i with
  | samp bank ch =>
    obtain ⟨p, v, hp, hv, rfl⟩ | ⟨hv, rfl⟩ := exec_samp_eq_next.1 h
    · exact ⟨l, _, exec_samp_eq_next.2 (.inl ⟨p, v, hp, hv, by cases bank <;> rfl⟩), .inl rfl⟩
    · exact ⟨l, _, exec_samp_eq_next.2 (.inr ⟨hv, rfl⟩), .inl rfl⟩
  | recv =>
    obtain ⟨p, v, hp, hv, rfl⟩ | ⟨hv, rfl⟩ := exec_recv_eq_next.1 h
    · exact ⟨l, _, exec_recv_eq_next.2 (.inl ⟨p, v, hp, hv, rfl⟩), .inl rfl⟩
    · exact ⟨l, _, exec_recv_eq_next.2 (.inr ⟨hv, rfl⟩), .inl rfl⟩
  | map =>
    obtain ⟨l', hl'⟩ := mapDrive_relabel s l
    exact ⟨l', t.events, (congrArg (advance (s.relabel l)) hl').trans (advance_relabel h l l'), .inl rfl⟩
  | dispLabel =>
    obtain ⟨p, hp, rfl⟩ := exec_dispLabel_eq_next.1 h
    exact ⟨l, _, exec_dispLabel_eq_next.2 ⟨p, hp, rfl⟩, .inr ⟨rfl, rfl⟩⟩
  | loop =>
    obtain rfl := exec_loop_eq_next.1 h
    exact ⟨l, _, rfl, .inl rfl⟩
  | emit _ | wait | canc | clsf | drv _ | dispValues =>
    exact ⟨l, t.events, advance_relabel h l l, .inl rfl⟩

end Sys2Proof.Machine
end

section
/-! PROOFS. One cycle of the machine is the cycle function (10_state.md R38): operations completed one after the other,
whatever the step they start at, then the cycle as receive, acquisition and drive in the order of `RECV_POS`. -/

namespace Sys2Proof.Machine

/-! ### Operations completed one after the other -/

/-- Operation `i` completes in `s`, at whatever step it stands, and leaves `t` there with `PH` one further. `PH` of `s`
and of `t` plays no part. -/
def Completes (i : Instr) (s t : State) : Prop :=
  ∀ p q : Phase, q.val = p.val + 1 → exec i (s.setPh p) = .next (t.setPh q)

/-- The operations complete in turn and bring `s` to `t`. -/
inductive CompletesAll : List Instr → State → State → Prop
  | nil (s : State) : CompletesAll [] s s
  | cons {i : Instr} {is : List Instr} {s t u : State} (head : Completes i s t) (tail : CompletesAll is t u) :
      CompletesAll (i :: is) s u

theorem Completes.all {i : Instr} {s t : State} (h : Completes i s t) : CompletesAll [i] s t := .cons h (.nil t)

theorem CompletesAll.append {is js : List Instr} {s t u : State} (h : CompletesAll is s t) (h' : CompletesAll js t u) :
    CompletesAll (is ++ js) s u := by
  induction h with
  | nil s => exact h'
  | cons head _ ih => exact .cons head (ih h')

theorem CompletesAll.of_eq {is : List Instr} {s t t' : State} (h : CompletesAll is s t) (ht : t = t') :
    CompletesAll is s t' := ht ▸ h

/-- What a cycle without refusal and reset rests on: a block with its own step ROM and `rst` low. -/
structure Undisturbed (s : State) : Prop where
  wf : s.cfg.wf = true
  timeoutMode : s.cfg.timeoutMode = false
  rom : s.rom = stepRom s.cfg.recvPos
  rstIn : s.rstIn = []

@[simp] theorem undisturbed_setPh {s : State} {p : Phase} : Undisturbed (s.setPh p) ↔ Undisturbed s :=
  ⟨fun ⟨hw, ht, hrom, hrst⟩ => ⟨hw, ht, hrom, hrst⟩, fun ⟨hw, ht, hrom, hrst⟩ => ⟨hw, ht, hrom, hrst⟩⟩

theorem Undisturbed.of_exec {i : Instr} {s t : State} (h : Undisturbed s) (he : exec i s = .next t) :
    Undisturbed t := by
  obtain ⟨hrom, hcfg, hrst⟩ := exec_keeps_rom_cfg_rstIn he
  exact ⟨hcfg ▸ h.wf, hcfg ▸ h.timeoutMode, by rw [hrom, hcfg, h.rom], hrst.trans h.rstIn⟩

theorem State.rstTaken_of_nil {s : State} (h : s.rstIn = []) : s.rstTaken = s := by
  unfold State.rstTaken
  rw [h, List.tail_nil, ← h]

/-- A step of an undisturbed block performs the operation its sequence has at `PH`. -/
theorem Undisturbed.step_of_exec {i : Instr} {s t : State} (h : Undisturbed s) (hi : opAt s.cfg.recvPos s.ph = i)
    (he : exec i s = .next t) : step s = .next t := by
  subst hi
  have hlow : s.rstLevel = false := by simp [State.rstLevel, h.rstIn]
  refine tick_eq_next.2 ⟨h.timeoutMode, h.wf, .inr ⟨hlow, opAt s.cfg.recvPos s.ph, ?_, ?_, ?_⟩⟩
  · rw [h.rom]; exact firstReserved_stepRom _
  · rw [State.fetch, h.rom]; exact decode_stepRom _ _
  · rwa [State.rstTaken_of_nil h.rstIn]

/-- What stands in the sequence from step `p` on begins with the operation at `p`. -/
theorem drop_romOps (rp : RecvPos) (p : Phase) : (romOps rp).drop p.val = opAt rp p :: (romOps rp).drop (p.val + 1) :=
  List.drop_eq_getElem_cons (by rw [romOps_length]; exact p.2)

/-- Running over operations that stand in the sequence from step `p` on, and that complete in turn. -/
theorem CompletesAll.run {is : List Instr} {s t : State} (h : CompletesAll is s t) (hu : Undisturbed s) {p q : Phase}
    {rest : List Instr} (hq : q.val = p.val + is.length) (hseq : (romOps s.cfg.recvPos).drop p.val = is ++ rest)
    (n : Nat) : core.run (is.length + n) (s.setPh p) = core.run n (t.setPh q) := by
  induction h generalizing p with
  | nil s =>
    obtain rfl : q = p := Fin.ext hq
    simp
  | @cons i is s t u head _ ih =>
    rw [List.length_cons] at hq
    obtain ⟨p', hp'⟩ : ∃ p' : Phase, p'.val = p.val + 1 := ⟨⟨p.val + 1, by omega⟩, rfl⟩
    have he : exec i (s.setPh p) = .next (t.setPh p') := head p p' hp'
    rw [drop_romOps, List.cons_append, List.cons.injEq] at hseq
    obtain ⟨hi, hseq⟩ := hseq
    have hcfg : t.cfg = s.cfg := (exec_keeps_rom_cfg_rstIn he).2.1
    have hup : Undisturbed (s.setPh p) := undisturbed_setPh.2 hu
    have hut : Undisturbed t := undisturbed_setPh.1 (hup.of_exec he)
    calc core.run ((i :: is).length + n) (s.setPh p)
      _ = core.run (is.length + n + 1) (s.setPh p) := by rw [List.length_cons, Nat.add_right_comm]
      _ = core.run (is.length + n) (t.setPh p') :=
        run_succ_of_next (hup.step_of_exec hi he) _
      _ = core.run n (u.setPh q) := ih hut (by omega) (by rw [hcfg, hp', hseq])

/-! ### What each operation of the cycle completes to -/

theorem completes_emit (b : Bool) (s : State) : Completes (.emit b) s ((s.setEmit b).record (.emitSet b)) :=
  fun _ q hq => exec_emit_eq_next.2 ⟨q, hq, rfl⟩

theorem completes_wait (s : State) : Completes .wait s s := fun _ q hq => exec_wait_eq_next.2 ⟨q, hq, rfl⟩

theorem completes_samp {s : State} {v : Byte} {rest : List (Option Byte)} (h : s.adcIn = some v :: rest) (bank : Bank)
    (ch : Channel) : Completes (.samp bank ch) s ((s.adcPolled.setReading bank ch v).record (.adcRead ch v)) :=
  fun _ q hq => exec_samp_eq_next.2 (.inl ⟨q, v, hq, State.adcAnswer_of_listed h, by cases bank <;> rfl⟩)

theorem completes_canc (s : State) : Completes .canc s (s.setCv (cancelAll s.on s.off)) :=
  fun _ q hq => exec_canc_eq_next.2 ⟨q, hq, rfl⟩

theorem State.serAnswer_of_listed {s : State} {v : Nat} {rest : List (Option Nat)} (h : s.serIn = some v :: rest)
    (hv : v < 2 ^ s.cfg.baseW) : s.serAnswer = some v := by
  simp [State.serAnswer, h, serData, Nat.mod_eq_of_lt hv]

theorem completes_recv {s : State} {v : Nat} {rest : List (Option Nat)} (h : s.serIn = some v :: rest)
    (hv : v < 2 ^ s.cfg.baseW) : Completes .recv s ((s.serPolled.setBase v).record (.serRecv v)) :=
  fun p q hq => exec_recv_eq_next.2 (.inl ⟨q, v, hq, State.serAnswer_of_listed (s := s.setPh p) h hv, rfl⟩)

theorem completes_clsf (s : State) :
    Completes .clsf s (s.setClass (patternOf s.cfg s.cv) (classify (patternOf s.cfg s.cv))) :=
  fun _ q hq => exec_clsf_eq_next.2 ⟨q, hq, rfl⟩

theorem mapDrive_setPh (s : State) (p : Phase) : mapDrive (s.setPh p) = (mapDrive s).setPh p := by
  unfold mapDrive
  simp only [State.setPh_cfg, State.setPh_base, State.setPh_cat]
  split <;> rfl

theorem completes_map (s : State) : Completes .map s (mapDrive s) :=
  fun p q hq => exec_map_eq_next.2 ⟨q, hq, by rw [mapDrive_setPh]; rfl⟩

theorem completes_drv (side : Side) (s : State) :
    Completes (.drv side) s (s.record (.motWrite side (s.speedOf side))) :=
  fun _ q hq => exec_drv_eq_next.2 ⟨q, hq, by cases side <;> rfl⟩

theorem completes_dispLabel (s : State) :
    Completes .dispLabel s (s.record (.dispWrite s.cfg.labelRow (labelText s.lbl))) :=
  fun _ q hq => exec_dispLabel_eq_next.2 ⟨q, hq, rfl⟩

theorem completes_dispValues (s : State) :
    Completes .dispValues s (s.record (.dispWrite s.cfg.valueRow (valueText s.cfg s.cv))) :=
  fun _ q hq => exec_dispValues_eq_next.2 ⟨q, hq, rfl⟩

/-! ### The acquisition -/

/-- `s` after the readings `b` of the channels `chs` have been taken into the bank, one after the other. -/
def State.sampled (bank : Bank) (b : Bank5) (s : State) (chs : List Channel) : State :=
  chs.foldl (fun s ch => (s.adcPolled.setReading bank ch b[ch]).record (.adcRead ch b[ch])) s

theorem completesAll_samps (bank : Bank) (b : Bank5) (rest : List (Option Byte)) (chs : List Channel) :
    ∀ s : State, s.adcIn = chs.map (fun ch => some b[ch]) ++ rest →
      CompletesAll (chs.map (.samp bank)) s (State.sampled bank b s chs) := by
  induction chs with
  | nil => exact fun s _ => .nil s
  | cons ch chs ih => exact fun s h => .cons (completes_samp h bank ch) (ih _ (by simp [h]))

/-- The whole bank of a state replaced. -/
def State.setBank (s : State) (b : Bank5) : Bank → State
  | .on => { s with on := b }
  | .off => { s with off := b }

theorem set_every_channel (v b : Bank5) :
    ((((v.set 0 b[0]).set 1 b[1]).set 2 b[2]).set 3 b[3]).set 4 b[4] = b := by
  ext i hi
  interval_cases i <;> simp

theorem toList_eq_map_finRange (b : Bank5) : b.toList = (List.finRange 5).map fun ch => b[ch] := by
  apply List.ext_getElem <;> simp

/-- Sampling every channel of a bank replaces the bank, takes five answers and records the five readings. -/
theorem sampled_finRange {s : State} {bank : Bank} {b : Bank5} {rest : List (Option Byte)}
    (h : s.adcIn = b.toList.map some ++ rest) :
    State.sampled bank b s (List.finRange 5) =
      { s.setBank b bank with
        adcIn := rest, adcPolls := s.adcPolls + 5
        events := s.events ++ (List.finRange 5).map fun ch => .adcRead ch b[ch] } := by
  rw [toList_eq_map_finRange] at h
  simp only [State.sampled, List.finRange_succ, List.finRange_zero, List.map_cons, List.map_nil, List.foldl_cons,
    List.foldl_nil] at h ⊢
  cases bank with
  | on => simp [State.setBank, State.adcPolled, State.setOn, State.record, h, set_every_channel]
  | off => simp [State.setBank, State.adcPolled, State.setOff, State.record, h, set_every_channel]

/-- The operations of one bank's acquisition: set the emitter, wait, sample every channel. -/
def bankOps (bank : Bank) (lit : Bool) : List Instr := [.emit lit, .wait] ++ (List.finRange 5).map (.samp bank)

/-- `s` after the acquisition of one bank. -/
def State.bankAcquired (s : State) (bank : Bank) (lit : Bool) (b : Bank5) (rest : List (Option Byte)) : State :=
  { s.setBank b bank with
    emit := lit, adcIn := rest, adcPolls := s.adcPolls + 5
    events := s.events ++ [.emitSet lit] ++ (List.finRange 5).map fun ch => .adcRead ch b[ch] }

theorem completesAll_bankOps {s : State} {b : Bank5} {rest : List (Option Byte)}
    (h : s.adcIn = b.toList.map some ++ rest) (bank : Bank) (lit : Bool) :
    CompletesAll (bankOps bank lit) s (s.bankAcquired bank lit b rest) := by
  have hs : ((s.setEmit lit).record (.emitSet lit)).adcIn = b.toList.map some ++ rest := h
  have hsamp := completesAll_samps bank b rest (List.finRange 5) _
    (by rw [hs, toList_eq_map_finRange, List.map_map]; rfl)
  rw [sampled_finRange hs] at hsamp
  refine CompletesAll.of_eq (.cons (completes_emit lit s) (.cons (completes_wait _) hsamp)) ?_
  cases bank <;> rfl

/-- Steps of a cycle up to and with CANC, without the receive (30_encoding.md R93). -/
def acquireOps : List Instr := bankOps .on true ++ bankOps .off false ++ [.canc]

/-- `s` after the acquisition of both banks and CANC. -/
def State.acquired (s : State) (x : CycleInput) (rest : List (Option Byte)) : State :=
  { s with
    on := x.on, off := x.off, cv := x.cancelled, emit := false, adcIn := rest, adcPolls := s.adcPolls + 10
    events := s.events ++ acquisitionEvents x }

theorem completesAll_acquireOps {s : State} {x : CycleInput} {rest : List (Option Byte)}
    (h : s.adcIn = (x.on.toList ++ x.off.toList).map some ++ rest) :
    CompletesAll acquireOps s (s.acquired x rest) := by
  rw [List.map_append, List.append_assoc] at h
  refine (((completesAll_bankOps h .on true).append (completesAll_bankOps rfl .off false)).append
    (completes_canc _).all).of_eq ?_
  simp [State.acquired, CycleInput.cancelled, State.bankAcquired, State.setBank, State.setCv, acquisitionEvents]

/-! ### The receive and the drive -/

/-- `s` after an answered RECV. -/
def State.received (s : State) (base : Nat) (rest : List (Option Nat)) : State :=
  { s with base := base, serIn := rest, serPolls := s.serPolls + 1, events := s.events ++ [.serRecv base] }

theorem completesAll_recv {s : State} {v : Nat} {rest : List (Option Nat)} (h : s.serIn = some v :: rest)
    (hv : v < 2 ^ s.cfg.baseW) : CompletesAll [.recv] s (s.received v rest) := by
  refine (completes_recv h hv).all.of_eq ?_
  simp [State.received, State.serPolled, State.setBase, State.record, h]

/-- Steps of a cycle after the acquisition and the receive, up to LOOP. -/
def driveOps : List Instr := [.clsf, .map, .drv .left, .drv .right, .dispLabel, .dispValues]

/-- The four events with which a cycle that ends with triple `r` closes. -/
def driveEvents (c : Config) (r : Retained) (x : CycleInput) : List Event :=
  [.motWrite .left r.ls, .motWrite .right r.rs,
   .dispWrite c.labelRow (labelText r.lbl), .dispWrite c.valueRow (valueText c x.cancelled)]

theorem cycleTriple_of_match {c : Config} {x : CycleInput} {rule : Int × Int × Label} (r : Retained)
    (h : speedRule c x.base (x.category c) = some rule) :
    cycleTriple c r x = ⟨sat8 c rule.1, sat8 c rule.2.1, rule.2.2⟩ := by
  simp only [cycleTriple, h]

theorem cycleTriple_of_no_match {c : Config} {x : CycleInput} (r : Retained)
    (h : speedRule c x.base (x.category c) = none) : cycleTriple c r x = r := by
  simp only [cycleTriple, h]

/-- MAP is the cycle function's step on the triple (10_state.md R38). -/
theorem mapDrive_eq_cycleTriple (s : State) {x : CycleInput} (hb : s.base = x.base) (hc : s.cat = x.category s.cfg) :
    mapDrive s = s.setDrive (cycleTriple s.cfg s.retained x).ls (cycleTriple s.cfg s.retained x).rs
      (cycleTriple s.cfg s.retained x).lbl := by
  cases h : speedRule s.cfg x.base (x.category s.cfg) with
  | none => rw [cycleTriple_of_no_match _ h, mapDrive_of_no_match (by rw [hb, hc, h])]; rfl
  | some rule => rw [cycleTriple_of_match _ h, mapDrive_of_match (by rw [hb, hc, h])]

/-- `s` after the steps from CLSF to DISP VALUES of a cycle. -/
def State.driven (s : State) (x : CycleInput) : State :=
  { s with
    pat := patternOf s.cfg x.cancelled, cat := x.category s.cfg
    ls := (cycleTriple s.cfg s.retained x).ls, rs := (cycleTriple s.cfg s.retained x).rs
    lbl := (cycleTriple s.cfg s.retained x).lbl
    events := s.events ++ driveEvents s.cfg (cycleTriple s.cfg s.retained x) x }

theorem completesAll_driveOps {s : State} {x : CycleInput} (hb : s.base = x.base) (hv : s.cv = x.cancelled) :
    CompletesAll driveOps s (s.driven x) := by
  have hclsf : Completes .clsf s (s.setClass (patternOf s.cfg x.cancelled) (x.category s.cfg)) := by
    rw [CycleInput.category, ← hv]
    exact completes_clsf s
  have hmap := completes_map (s.setClass (patternOf s.cfg x.cancelled) (x.category s.cfg))
  rw [mapDrive_eq_cycleTriple (x := x) (s.setClass (patternOf s.cfg x.cancelled) (x.category s.cfg)) hb rfl] at hmap
  refine CompletesAll.of_eq (.cons hclsf (.cons hmap (.cons (completes_drv .left _) (.cons (completes_drv .right _)
    (.cons (completes_dispLabel _) (completes_dispValues _).all))))) ?_
  simp [State.driven, State.setClass, State.setDrive, State.record, State.speedOf, State.retained, driveEvents, hv]

/-! ### The cycle -/

/-- `s` after a cycle of the cycle function with answers `x`. -/
def State.cycled (s : State) (x : CycleInput) (adcRest : List (Option Byte)) (serRest : List (Option Nat)) : State :=
  { s with
    on := x.on, off := x.off, cv := x.cancelled, base := x.base,
    pat := patternOf s.cfg x.cancelled, cat := x.category s.cfg,
    ls := (cycle s.cfg s.retained x).1.ls, rs := (cycle s.cfg s.retained x).1.rs,
    lbl := (cycle s.cfg s.retained x).1.lbl, emit := false,
    adcIn := adcRest, adcPolls := s.adcPolls + 10, serIn := serRest, serPolls := s.serPolls + 1,
    events := s.events ++ (cycle s.cfg s.retained x).2 }

/-- The operations before LOOP, in the order of `RECV_POS`, complete to the end of the cycle function. -/
theorem completesAll_opsBefore_loop {s : State} {x : CycleInput} {adcRest : List (Option Byte)}
    {serRest : List (Option Nat)} (hadc : s.adcIn = (x.on.toList ++ x.off.toList).map some ++ adcRest)
    (hser : s.serIn = some x.base :: serRest) (hbase : x.base < 2 ^ s.cfg.baseW) :
    CompletesAll (opsBefore s.cfg.recvPos 22) s (s.cycled x adcRest serRest) := by
  cases hpos : s.cfg.recvPos with
  | preClassify =>
    have hops : opsBefore .preClassify 22 = acquireOps ++ [.recv] ++ driveOps := by decide
    have hcycle := ((completesAll_acquireOps hadc).append (completesAll_recv hser hbase)).append
      (completesAll_driveOps rfl rfl)
    refine hops ▸ hcycle.of_eq ?_
    simp [State.driven, State.received, State.acquired, State.cycled, State.retained, cycle, cycleEvents,
      driveEvents, hpos]
  | cycleStart =>
    have hops : opsBefore .cycleStart 22 = [.recv] ++ acquireOps ++ driveOps := by decide
    have hcycle := ((completesAll_recv hser hbase).append (completesAll_acquireOps hadc)).append
      (completesAll_driveOps rfl rfl)
    refine hops ▸ hcycle.of_eq ?_
    simp [State.driven, State.received, State.acquired, State.cycled, State.retained, cycle, cycleEvents,
      driveEvents, hpos]

theorem opAt_last (rp : RecvPos) : opAt rp 22 = .loop := by cases rp <;> rfl

theorem cycleEvents_length (c : Config) (r : Retained) (x : CycleInput) : (cycleEvents c r x).length = 17 := by
  unfold cycleEvents
  cases c.recvPos <;> simp [acquisitionEvents]

/-- Settles O41: the 22 operations before LOOP complete to the end of the cycle function, and LOOP sets `PH` to 0. -/
theorem cycleIsTheCycleFunction : Obligations.CycleIsTheCycleFunction := by
  intro s x adcRest serRest hwf ht hrom hrst hph hadc hser hbase
  refine ⟨?_, cycleEvents_length _ _ _⟩
  have hu : Undisturbed s := ⟨hwf, ht, hrom, hrst⟩
  have hseq : (romOps s.cfg.recvPos).drop (0 : Phase).val =
      opsBefore s.cfg.recvPos 22 ++ (romOps s.cfg.recvPos).drop 22 :=
    (List.take_append_drop 22 _).symm
  have hlen : (opsBefore s.cfg.recvPos 22).length = 22 := by simp [opsBefore, romOps_length]
  have hrun := (completesAll_opsBefore_loop hadc hser hbase).run hu (p := 0) (q := 22) (by rw [hlen]; rfl) hseq 1
  rw [hlen] at hrun
  have hend : Undisturbed ((s.cycled x adcRest serRest).setPh 22) := ⟨hwf, ht, hrom, hrst⟩
  have hloop : step ((s.cycled x adcRest serRest).setPh 22) = .next ((s.cycled x adcRest serRest).setPh 0) :=
    hend.step_of_exec (opAt_last _) (exec_loop_eq_next.2 rfl)
  calc core.run 23 s
    _ = core.run (22 + 1) (s.setPh 0) := by rw [State.setPh, ← hph]
    _ = core.run 1 ((s.cycled x adcRest serRest).setPh 22) := hrun
    _ = .next ((s.cycled x adcRest serRest).setPh 0) := run_succ_of_next hloop 0

end Sys2Proof.Machine
end

section
/-! PROOFS. The statements of 20_memory.md: the ports, the event of each operation, what no step writes, and that every
step keeps the invariant. -/

namespace Sys2Proof.Machine

/-! ### The output ports -/

theorem pins_of_rst {s : State} (h : s.rstLevel = true) : pins s = ⟨s.emit, none, false, none, none⟩ := if_pos h

theorem pins_of_decode {s : State} {i : Instr} (hr : s.rstLevel = false) (hd : decode s.fetch = .op i) :
    pins s = pinsOf s i := by
  simp [pins, hr, hd]

theorem pinsOf_emitEn (s : State) (i : Instr) : (pinsOf s i).emitEn = s.emit := by cases i <;> rfl

theorem pins_emitEn (s : State) : (pins s).emitEn = s.emit := by
  unfold pins
  split
  · rfl
  · split
    · exact pinsOf_emitEn s _
    · rfl

/-- Settles O45: under `rst` no port requests anything, and otherwise the ports are those of the operation fetched. -/
theorem portsFollowTheOperation : Obligations.PortsFollowTheOperation := by
  refine ⟨pins_emitEn, fun s hr => by simp [pins_of_rst hr], fun s i hr hd => ?_⟩
  rw [pins_of_decode hr hd]
  cases i with
  | drv side =>
    refine ⟨by simp [pinsOf], by simp [pinsOf], fun side' v => ?_, by simp [pinsOf]⟩
    simp only [pinsOf, Option.some.injEq, Prod.mk.injEq, Instr.drv.injEq]
    constructor <;> (rintro ⟨rfl, rfl⟩; exact ⟨rfl, rfl⟩)
  | samp _ _ | recv | dispLabel | dispValues => simp [pinsOf, eq_comm]
  | emit _ | wait | canc | clsf | map | loop => simp [pinsOf]

/-! ### The event of each operation -/

/-- Settles O36: the inversion lemma of each operation names its one event; a hold leaves the history to the poll. -/
theorem eachOperationRecordsItsEvent : Obligations.EachOperationRecordsItsEvent := by
  intro i s t h
  cases i with
  | emit b => obtain ⟨p, -, rfl⟩ := exec_emit_eq_next.1 h; simp [Holds]
  | wait => obtain ⟨p, -, rfl⟩ := exec_wait_eq_next.1 h; simp
  | samp bank ch => obtain ⟨p, v, -, hv, rfl⟩ | ⟨hv, rfl⟩ := exec_samp_eq_next.1 h <;> simp [Holds, hv]
  | canc => obtain ⟨p, -, rfl⟩ := exec_canc_eq_next.1 h; simp
  | recv => obtain ⟨p, v, -, hv, rfl⟩ | ⟨hv, rfl⟩ := exec_recv_eq_next.1 h <;> simp [Holds, hv]
  | clsf => obtain ⟨p, -, rfl⟩ := exec_clsf_eq_next.1 h; simp
  | map => obtain ⟨p, -, rfl⟩ := exec_map_eq_next.1 h; simp
  | drv side => obtain ⟨p, -, rfl⟩ := exec_drv_eq_next.1 h; cases side <;> simp [Holds, State.speedOf]
  | dispLabel => obtain ⟨p, -, rfl⟩ := exec_dispLabel_eq_next.1 h; simp [Holds]
  | dispValues => obtain ⟨p, -, rfl⟩ := exec_dispValues_eq_next.1 h; simp [Holds]
  | loop => obtain rfl := exec_loop_eq_next.1 h; simp

/-! ### The ROM and the constants -/

/-- Settles O35: a reset leaves the ROM and the constants, and no operation writes them. -/
theorem stepKeepsRomAndConstants : Obligations.StepKeepsRomAndConstants := by
  intro s t h
  obtain ⟨-, -, ⟨-, rfl⟩ | ⟨-, i, -, -, he⟩⟩ := tick_eq_next.1 h
  · exact ⟨rfl, rfl⟩
  · obtain ⟨hrom, hcfg, -⟩ := exec_keeps_rom_cfg_rstIn he
    exact ⟨hrom, hcfg⟩

/-! ### What an operation leaves unchanged, register by register -/

section Kept
variable {i : Instr} {s t : State}

theorem exec_keeps_on (h : exec i s = .next t) (hi : ∀ ch, i ≠ .samp .on ch) : t.on = s.on := by
  obtain ⟨hon, -⟩ := eachRegisterHasItsWriters i s t h
  by_contra hne
  obtain ⟨ch, rfl⟩ := hon hne
  exact hi ch rfl

theorem exec_keeps_off (h : exec i s = .next t) (hi : ∀ ch, i ≠ .samp .off ch) : t.off = s.off := by
  obtain ⟨-, hoff, -⟩ := eachRegisterHasItsWriters i s t h
  by_contra hne
  obtain ⟨ch, rfl⟩ := hoff hne
  exact hi ch rfl

theorem exec_keeps_cv (h : exec i s = .next t) (hi : i ≠ .canc) : t.cv = s.cv := by
  obtain ⟨-, -, hcv, -⟩ := eachRegisterHasItsWriters i s t h
  exact by_contra fun hne => hi (hcv hne)

theorem exec_keeps_base (h : exec i s = .next t) (hi : i ≠ .recv) : t.base = s.base := by
  obtain ⟨-, -, -, hbase, -⟩ := eachRegisterHasItsWriters i s t h
  exact by_contra fun hne => hi (hbase hne)

theorem exec_keeps_class (h : exec i s = .next t) (hi : i ≠ .clsf) : t.pat = s.pat ∧ t.cat = s.cat := by
  obtain ⟨-, -, -, -, hclass, -⟩ := eachRegisterHasItsWriters i s t h
  exact ⟨by_contra fun hne => hi (hclass (.inl hne)), by_contra fun hne => hi (hclass (.inr hne))⟩

theorem exec_keeps_drive (h : exec i s = .next t) (hi : i ≠ .map) : t.ls = s.ls ∧ t.rs = s.rs ∧ t.lbl = s.lbl := by
  obtain ⟨-, -, -, -, -, hdrive, -⟩ := eachRegisterHasItsWriters i s t h
  exact ⟨by_contra fun hne => hi (hdrive (.inl hne)).1, by_contra fun hne => hi (hdrive (.inr (.inl hne))).1,
    by_contra fun hne => hi (hdrive (.inr (.inr hne))).1⟩

theorem exec_keeps_emit (h : exec i s = .next t) (hi : ∀ b, i ≠ .emit b) : t.emit = s.emit := by
  obtain ⟨-, -, -, -, -, -, hemit, -⟩ := eachRegisterHasItsWriters i s t h
  by_contra hne
  obtain ⟨b, rfl⟩ := hemit hne
  exact hi b rfl

end Kept

/-! ### The order of the sequence -/

/-- The operations that must not come before `i` in a cycle: what `Inv` says once they are performed, or their event as
`eventOf` tells it, reads a register that `i` writes. -/
def outdatedBy : Instr → List Instr
  | .emit true => [.emit false]
  | .samp bank ch => [.samp bank ch, .canc]
  | .canc => [.clsf, .dispValues]
  | .recv => [.recv, .map]
  | .clsf => [.map]
  | .map => [.drv .left, .drv .right, .dispLabel]
  | .emit false => []
  | .wait => []
  | .drv _ => []
  | .dispLabel => []
  | .dispValues => []
  | .loop => []

/-- In both sequences an operation comes before those it would outdate (30_encoding.md R93, R105). -/
theorem outdatedBy_not_mem_opsBefore :
    ∀ (rp : RecvPos) (k : Phase), ∀ j ∈ outdatedBy (opAt rp k), j ∉ opsBefore rp k.val := by
  intro rp
  cases rp <;> decide

theorem emit_false_mem_opsBefore_of_loop :
    ∀ (rp : RecvPos) (k : Phase), opAt rp k = .loop → .emit false ∈ opsBefore rp k.val := by
  intro rp
  cases rp <;> decide

theorem performed_iff_mem {s : State} {rp : RecvPos} (h : s.rom = stepRom rp) (j : Instr) :
    performed s j = true ↔ j ∈ opsBefore rp s.ph.val := by
  simp [performed_eq h]

/-! ### How an operation of the sequence goes on -/

/-- An operation that goes on holds and polls, or is LOOP, or advances `PH` and records the event `eventOf` tells from the
registers after it. -/
theorem exec_eq_next_cases {i : Instr} {s t : State} (h : exec i s = .next t) :
    (t = s.adcPolled ∨ t = s.serPolled) ∨ (i = .loop ∧ t = s.setPh 0) ∨
      (t.ph.val = s.ph.val + 1 ∧ t.events = s.events ++ (eventOf t i).toList) := by
  cases i with
  | samp bank ch =>
    obtain ⟨p, v, hp, -, rfl⟩ | ⟨-, rfl⟩ := exec_samp_eq_next.1 h
    · exact .inr (.inr ⟨hp, by cases bank <;> simp [eventOf]⟩)
    · exact .inl (.inl rfl)
  | recv =>
    obtain ⟨p, v, hp, -, rfl⟩ | ⟨-, rfl⟩ := exec_recv_eq_next.1 h
    · exact .inr (.inr ⟨hp, rfl⟩)
    · exact .inl (.inr rfl)
  | loop => exact .inr (.inl ⟨rfl, exec_loop_eq_next.1 h⟩)
  | map =>
    obtain ⟨p, hp, rfl⟩ := exec_map_eq_next.1 h
    exact .inr (.inr ⟨by simpa using hp, by simp [eventOf]⟩)
  | wait | canc | clsf =>
    obtain ⟨p, hp, rfl⟩ := advance_eq_next.1 h
    exact .inr (.inr ⟨hp, (List.append_nil _).symm⟩)
  | emit _ | drv _ | dispLabel | dispValues =>
    obtain ⟨p, hp, rfl⟩ := advance_eq_next.1 h
    exact .inr (.inr ⟨hp, rfl⟩)

/-- A reading other than the one sampled is told as before. -/
theorem exec_keeps_eventOf_samp {i : Instr} {s t : State} (h : exec i s = .next t) {bank : Bank} {ch : Channel}
    (hi : i ≠ .samp bank ch) : eventOf t (.samp bank ch) = eventOf s (.samp bank ch) := by
  by_cases hs : ∃ ch', i = .samp bank ch'
  · obtain ⟨ch', rfl⟩ := hs
    have hne : ch'.val ≠ ch.val := fun heq => hi (by rw [Fin.ext heq])
    obtain ⟨p, v, -, -, rfl⟩ | ⟨-, rfl⟩ := exec_samp_eq_next.1 h
    · cases bank <;> simp [eventOf, hne]
    · cases bank <;> rfl
  · push Not at hs
    cases bank with
    | on => simp [eventOf, exec_keeps_on h hs]
    | off => simp [eventOf, exec_keeps_off h hs]

/-- An operation leaves the event of every operation it does not outdate. -/
theorem exec_keeps_eventOf {i j : Instr} {s t : State} (h : exec i s = .next t) (hj : j ∉ outdatedBy i) :
    eventOf t j = eventOf s j := by
  obtain ⟨-, hcfg, -⟩ := exec_keeps_rom_cfg_rstIn h
  cases j with
  | samp bank ch => exact exec_keeps_eventOf_samp h (by rintro rfl; simp [outdatedBy] at hj)
  | recv => simp [eventOf, exec_keeps_base h (by rintro rfl; simp [outdatedBy] at hj)]
  | drv side =>
    obtain ⟨hls, hrs, -⟩ := exec_keeps_drive h (by rintro rfl; cases side <;> simp [outdatedBy] at hj)
    cases side <;> simp [eventOf, State.speedOf, hls, hrs]
  | dispLabel =>
    obtain ⟨-, -, hlbl⟩ := exec_keeps_drive h (by rintro rfl; simp [outdatedBy] at hj)
    simp [eventOf, hcfg, hlbl]
  | dispValues => simp [eventOf, hcfg, exec_keeps_cv h (by rintro rfl; simp [outdatedBy] at hj)]
  | emit _ | wait | canc | clsf | map | loop => rfl

/-! ### The operations that advance keep the invariant -/

/-- `s` stands at operation `i` of its own sequence, which takes it to `t` one step further. -/
structure Advances (i : Instr) (s t : State) : Prop where
  rom : s.rom = stepRom s.cfg.recvPos
  op : opAt s.cfg.recvPos s.ph = i
  exec : exec i s = .next t
  ph : t.ph.val = s.ph.val + 1
  events : t.events = s.events ++ (eventOf t i).toList

namespace Advances
variable {i : Instr} {s t : State}

theorem rom_eq (h : Advances i s t) : t.rom = stepRom s.cfg.recvPos := by
  obtain ⟨hrom, -, -⟩ := exec_keeps_rom_cfg_rstIn h.exec
  rw [hrom, h.rom]

theorem cfg_eq (h : Advances i s t) : t.cfg = s.cfg := by
  obtain ⟨-, hcfg, -⟩ := exec_keeps_rom_cfg_rstIn h.exec
  exact hcfg

theorem opsBefore_eq (h : Advances i s t) :
    opsBefore s.cfg.recvPos t.ph.val = opsBefore s.cfg.recvPos s.ph.val ++ [i] := by
  rw [h.ph, opsBefore_succ, h.op]

theorem performed_iff (h : Advances i s t) (j : Instr) : performed t j = true ↔ performed s j = true ∨ j = i := by
  rw [performed_iff_mem h.rom_eq, performed_iff_mem h.rom, h.opsBefore_eq, List.mem_append, List.mem_singleton]

theorem performed_of_ne (h : Advances i s t) {j : Instr} (hj : j ≠ i) : performed t j = performed s j := by
  rw [Bool.eq_iff_iff, h.performed_iff, or_iff_left hj]

/-- What this cycle has performed is not outdated by the next operation. -/
theorem not_outdated (h : Advances i s t) {j : Instr} (hj : performed s j = true) : j ∉ outdatedBy i := by
  intro hmem
  rw [← h.op] at hmem
  exact outdatedBy_not_mem_opsBefore _ _ j hmem ((performed_iff_mem h.rom j).1 hj)

theorem emitter (h : Advances i s t) (hs : s.emit = (performed s (.emit true) && !performed s (.emit false))) :
    t.emit = (performed t (.emit true) && !performed t (.emit false)) := by
  by_cases hi : ∃ b, i = .emit b
  · obtain ⟨b, rfl⟩ := hi
    have hown : performed t (.emit b) = true := (h.performed_iff _).2 (.inr rfl)
    obtain ⟨p, -, ht⟩ := exec_emit_eq_next.1 h.exec
    have hemit : t.emit = b := by rw [ht]; rfl
    cases b with
    | false => simp [hemit, hown]
    | true =>
      have hdark : performed s (.emit false) ≠ true := fun hp => h.not_outdated hp (by simp [outdatedBy])
      simp [hemit, hown, h.performed_of_ne (j := .emit false) (by simp), hdark]
  · push Not at hi
    rw [exec_keeps_emit h.exec hi, h.performed_of_ne (hi true).symm, h.performed_of_ne (hi false).symm, hs]

theorem command (h : Advances i s t) (hs : s.base < 2 ^ s.cfg.baseW) : t.base < 2 ^ t.cfg.baseW := by
  rw [h.cfg_eq]
  by_cases hi : i = .recv
  · subst hi
    obtain ⟨p, v, -, hv, rfl⟩ | ⟨-, rfl⟩ := exec_recv_eq_next.1 h.exec
    · exact State.serAnswer_lt hv
    · exact hs
  · rwa [exec_keeps_base h.exec hi]

theorem cancelled (h : Advances i s t) (hs : performed s .canc = true → s.cv = cancelAll s.on s.off)
    (hp : performed t .canc = true) : t.cv = cancelAll t.on t.off := by
  by_cases hc : i = .canc
  · subst hc
    obtain ⟨p, -, rfl⟩ := exec_canc_eq_next.1 h.exec
    rfl
  · have hps : performed s .canc = true := h.performed_of_ne (Ne.symm hc) ▸ hp
    have hi := h.not_outdated hps
    rw [exec_keeps_on h.exec (by rintro ch rfl; simp [outdatedBy] at hi),
      exec_keeps_off h.exec (by rintro ch rfl; simp [outdatedBy] at hi), exec_keeps_cv h.exec hc]
    exact hs hps

theorem classified (h : Advances i s t)
    (hs : performed s .clsf = true → s.pat = patternOf s.cfg s.cv ∧ s.cat = classify s.pat)
    (hp : performed t .clsf = true) : t.pat = patternOf t.cfg t.cv ∧ t.cat = classify t.pat := by
  by_cases hc : i = .clsf
  · subst hc
    obtain ⟨p, -, rfl⟩ := exec_clsf_eq_next.1 h.exec
    exact ⟨rfl, rfl⟩
  · have hps : performed s .clsf = true := h.performed_of_ne (Ne.symm hc) ▸ hp
    have hi := h.not_outdated hps
    obtain ⟨hpat, hcat⟩ := exec_keeps_class h.exec hc
    rw [hpat, hcat, h.cfg_eq, exec_keeps_cv h.exec (by rintro rfl; simp [outdatedBy] at hi)]
    exact hs hps

theorem mapped (h : Advances i s t)
    (hs : performed s .map = true → ∀ l r lab, speedRule s.cfg s.base s.cat = some (l, r, lab) →
      s.ls = sat8 s.cfg l ∧ s.rs = sat8 s.cfg r ∧ s.lbl = lab)
    (hp : performed t .map = true) (l r : Int) (lab : Label) (hrule : speedRule t.cfg t.base t.cat = some (l, r, lab)) :
    t.ls = sat8 t.cfg l ∧ t.rs = sat8 t.cfg r ∧ t.lbl = lab := by
  by_cases hm : i = .map
  · subst hm
    obtain ⟨p, -, rfl⟩ := exec_map_eq_next.1 h.exec
    simp only [State.setPh_cfg, State.setPh_base, State.setPh_cat, mapDrive_cfg, mapDrive_base, mapDrive_cat] at hrule
    simp [mapDrive_of_match hrule]
  · have hps : performed s .map = true := h.performed_of_ne (Ne.symm hm) ▸ hp
    have hi := h.not_outdated hps
    obtain ⟨hls, hrs, hlbl⟩ := exec_keeps_drive h.exec hm
    obtain ⟨-, hcat⟩ := exec_keeps_class h.exec (by rintro rfl; simp [outdatedBy] at hi)
    rw [h.cfg_eq, hcat, exec_keeps_base h.exec (by rintro rfl; simp [outdatedBy] at hi)] at hrule
    rw [hls, hrs, hlbl, h.cfg_eq]
    exact hs hps l r lab hrule

/-- The events of the cycle so far are those before with the one of the operation that advanced. -/
theorem cycleSoFar_append (h : Advances i s t) : cycleSoFar t = cycleSoFar s ++ (eventOf t i).toList := by
  have hkept : (opsBefore s.cfg.recvPos s.ph.val).filterMap (eventOf t) =
      (opsBefore s.cfg.recvPos s.ph.val).filterMap (eventOf s) :=
    List.filterMap_congr fun j hj =>
      exec_keeps_eventOf h.exec (h.not_outdated ((performed_iff_mem h.rom j).2 hj))
  rw [cycleSoFar_eq h.rom_eq, cycleSoFar_eq h.rom, h.opsBefore_eq, List.filterMap_append, hkept]
  cases hev : eventOf t i <;> simp [hev]

theorem history (h : Advances i s t) (hs : ∃ past, s.events = past ++ cycleSoFar s) :
    ∃ past, t.events = past ++ cycleSoFar t := by
  obtain ⟨past, hpast⟩ := hs
  exact ⟨past, by rw [h.events, hpast, h.cycleSoFar_append, List.append_assoc]⟩

theorem inv (h : Advances i s t) (hs : Inv s) : Inv t where
  config := by rw [h.cfg_eq]; exact hs.config
  rom := by rw [h.cfg_eq]; exact h.rom_eq
  emitter := h.emitter hs.emitter
  command := h.command hs.command
  cancelled := h.cancelled hs.cancelled
  classified := h.classified hs.classified
  mapped := h.mapped hs.mapped
  history := h.history hs.history

end Advances

/-! ### Every step keeps the invariant -/

/-- The invariant does not look at the environment's inputs. -/
theorem Inv.with_inputs {s : State} (h : Inv s) (adcIn : List (Option Byte)) (adcPolls : Nat) (serIn : List (Option Nat))
    (serPolls : Nat) (rstIn : List Bool) :
    Inv { s with adcIn := adcIn, adcPolls := adcPolls, serIn := serIn, serPolls := serPolls, rstIn := rstIn } :=
  ⟨h.config, h.rom, h.emitter, h.command, h.cancelled, h.classified, h.mapped, h.history⟩

theorem Inv.rstTaken {s : State} (h : Inv s) : Inv s.rstTaken := h.with_inputs _ _ _ _ _

theorem Inv.assertReset {s : State} (h : Inv s) : Inv s.assertReset :=
  inv_of_boundary rfl h.config h.rom rfl (Nat.two_pow_pos _)

theorem Inv.opAt_of_decode {s : State} (h : Inv s) {i : Instr} (hd : decode s.fetch = .op i) :
    opAt s.cfg.recvPos s.ph = i := by
  rw [State.fetch, h.rom, decode_stepRom] at hd
  exact Decoded.op.inj hd

/-- At LOOP both EMITs of the cycle are done, so the emitter is dark (20_memory.md R70). -/
theorem Inv.emit_of_loop {s : State} (h : Inv s) (hop : opAt s.cfg.recvPos s.ph = .loop) : s.emit = false := by
  have hdone := (performed_iff_mem h.rom (.emit false)).2 (emit_false_mem_opsBefore_of_loop _ _ hop)
  simp [h.emitter, hdone]

theorem Inv.of_exec {i : Instr} {s t : State} (h : Inv s) (hop : opAt s.cfg.recvPos s.ph = i) (he : exec i s = .next t) :
    Inv t := by
  obtain (rfl | rfl) | ⟨rfl, rfl⟩ | ⟨hph, hev⟩ := exec_eq_next_cases he
  · exact h.with_inputs _ _ _ _ _
  · exact h.with_inputs _ _ _ _ _
  · exact inv_of_boundary rfl h.config h.rom (h.emit_of_loop hop) h.command
  · exact Advances.inv ⟨h.rom, hop, he, hph, hev⟩ h

/-- Settles O39: a reset stands at a cycle boundary, and without it the operation at `PH` keeps the invariant. -/
theorem stepKeepsTheInvariant : Obligations.StepKeepsTheInvariant := by
  intro s t h hstep
  obtain ⟨-, -, ⟨-, rfl⟩ | ⟨-, i, -, hd, he⟩⟩ := tick_eq_next.1 hstep
  · exact h.rstTaken.assertReset
  · exact h.rstTaken.of_exec (h.opAt_of_decode hd) he

end Sys2Proof.Machine
end

section
/-! PROOFS. The statements of 30_encoding.md: the decoder and the encoder are inverse, which words are reserved, the
step sequences, and what the place of the receive changes. -/

namespace Sys2Proof.Machine

/-! ### The fields of a word -/

@[simp] theorem opcField_wordOf (opc : BitVec 4) (sel : Bool) (ch : BitVec 3) : opcField (wordOf opc sel ch) = opc := by
  rw [opcField, wordOf, BitVec.append_assoc]
  exact BitVec.extractLsb'_append_eq_left

@[simp] theorem selField_wordOf (opc : BitVec 4) (sel : Bool) (ch : BitVec 3) : selField (wordOf opc sel ch) = sel := by
  rw [selField, wordOf, BitVec.getLsbD_append, BitVec.getLsbD_append]
  simp

@[simp] theorem chField_wordOf (opc : BitVec 4) (sel : Bool) (ch : BitVec 3) : chField (wordOf opc sel ch) = ch :=
  BitVec.extractLsb'_append_eq_right

theorem opcField_toNat (w : Byte) : (opcField w).toNat = w.toNat / 16 := by
  have := w.isLt
  simp [opcField, Nat.shiftRight_eq_div_pow]
  omega

theorem selField_eq_true_iff {w : Byte} : selField w = true ↔ w.toNat / 8 % 2 = 1 := by
  simp [selField, BitVec.getLsbD, Nat.testBit_eq_decide_div_mod_eq]

theorem chField_toNat (w : Byte) : (chField w).toNat = w.toNat % 8 := by simp [chField]

theorem chField_eq_zero_iff {w : Byte} : chField w = 0 ↔ w.toNat % 8 = 0 := by
  rw [← BitVec.toNat_inj, chField_toNat]
  rfl

/-- A word is its three fields (30_encoding.md R90). -/
theorem wordOf_fields (w : Byte) : wordOf (opcField w) (selField w) (chField w) = w := by
  have hsel : BitVec.ofBool (selField w) = w.extractLsb' 3 1 := by
    ext i hi
    obtain rfl : i = 0 := by omega
    simp [selField]
  have hhigh : w.extractLsb' 4 4 ++ w.extractLsb' 3 1 = w.extractLsb' 3 5 :=
    BitVec.extractLsb'_append_extractLsb'_eq_extractLsb' rfl
  rw [wordOf, hsel, opcField, chField, hhigh]
  exact BitVec.extractLsb'_append_extractLsb'

theorem wordOf_eq {w : Byte} {opc : BitVec 4} {sel : Bool} {ch : BitVec 3} (hopc : (opcField w).toNat = opc.toNat)
    (hsel : selField w = sel) (hch : chField w = ch) : wordOf opc sel ch = w := by
  rw [← BitVec.eq_of_toNat_eq hopc, ← hsel, ← hch, wordOf_fields]

/-! ### What each shape of word decodes to -/

theorem decodeSelected_eq_op_iff {w : Byte} {f : Bool → Instr} {i : Instr} :
    decodeSelected w f = .op i ↔ chField w = 0 ∧ f (selField w) = i := by
  by_cases hch : chField w = 0#3 <;> simp [decodeSelected, hch]

theorem decodePlain_eq_op_iff {w : Byte} {i j : Instr} :
    decodePlain w i = .op j ↔ chField w = 0 ∧ selField w = false ∧ i = j := by
  by_cases hch : chField w = 0#3 <;> cases hsel : selField w <;> simp [decodePlain, hch, hsel]

theorem decodeSamp_eq_op_iff {w : Byte} {i : Instr} :
    decodeSamp w = .op i ↔
      ∃ ch : Channel, (chField w).toNat = ch.val ∧ .samp (if selField w then .on else .off) ch = i := by
  unfold decodeSamp
  split
  case isTrue h =>
    constructor
    · intro hi
      exact ⟨⟨_, h⟩, rfl, Decoded.op.inj hi⟩
    · rintro ⟨ch, hch, rfl⟩
      simp [hch]
  case isFalse h =>
    simp only [reduceCtorEq, false_iff]
    rintro ⟨ch, hch, -⟩
    exact h (hch ▸ ch.isLt)

theorem decodeSelected_reserved_iff {w : Byte} {f : Bool → Instr} :
    (∃ why, decodeSelected w f = .reserved why) ↔ w.toNat % 8 ≠ 0 := by
  rw [Ne, ← chField_eq_zero_iff]
  by_cases hch : chField w = 0#3 <;> simp [decodeSelected, hch]

theorem decodePlain_reserved_iff {w : Byte} {i : Instr} :
    (∃ why, decodePlain w i = .reserved why) ↔ w.toNat / 8 % 2 = 1 ∨ w.toNat % 8 ≠ 0 := by
  rw [Ne, ← chField_eq_zero_iff, ← selField_eq_true_iff]
  by_cases hch : chField w = 0#3 <;> cases hsel : selField w <;> simp [decodePlain, hch, hsel]

theorem decodeSamp_reserved_iff {w : Byte} : (∃ why, decodeSamp w = .reserved why) ↔ 5 ≤ w.toNat % 8 := by
  rw [← chField_toNat]
  unfold decodeSamp
  split <;> simp <;> omega

/-! ### The decoder and the encoder -/

/-- Settles O9: the fields of an encoded operation are those it was written with, and they name its row of the table. -/
theorem decodeOfEncode : Obligations.DecodeOfEncode := by
  intro i
  cases i with
  | emit b => simp [encode, decode, decodeSelected]
  | samp bank ch =>
    have hch : (BitVec.ofNat 3 ch.val).toNat = ch.val := by rw [BitVec.toNat_ofNat]; omega
    have hsamp : decodeSamp (encode (.samp bank ch)) = .op (.samp bank ch) :=
      decodeSamp_eq_op_iff.2 ⟨ch, by simpa [encode] using hch, by cases bank <;> simp [encode]⟩
    simpa [encode, decode] using hsamp
  | drv side => cases side <;> simp [encode, decode, decodeSelected]
  | dispLabel | dispValues => simp [encode, decode, decodeSelected]
  | wait | canc | recv | clsf | map | loop => simp [encode, decode, decodePlain]

/-- Each row of the table fixes the fields of its words. -/
theorem encode_of_decode {w : Byte} {i : Instr} (h : decode w = .op i) : encode i = w := by
  unfold decode at h
  split at h
  case h_1 hopc =>
    obtain ⟨hch, rfl⟩ := decodeSelected_eq_op_iff.1 h
    exact wordOf_eq hopc rfl hch
  case h_3 hopc =>
    obtain ⟨ch, hch, rfl⟩ := decodeSamp_eq_op_iff.1 h
    exact wordOf_eq hopc (by cases selField w <;> rfl) (by rw [← hch, BitVec.ofNat_toNat, BitVec.setWidth_eq])
  case h_8 hopc =>
    obtain ⟨hch, rfl⟩ := decodeSelected_eq_op_iff.1 h
    exact wordOf_eq hopc (by cases selField w <;> rfl) hch
  case h_9 hopc =>
    obtain ⟨hch, rfl⟩ := decodeSelected_eq_op_iff.1 h
    cases hsel : selField w <;> exact wordOf_eq hopc hsel hch
  case h_2 hopc | h_4 hopc | h_5 hopc | h_6 hopc | h_7 hopc | h_10 hopc =>
    obtain ⟨hch, hsel, rfl⟩ := decodePlain_eq_op_iff.1 h
    exact wordOf_eq hopc hsel hch
  case h_11 => cases h

/-- The decoder and the encoder are inverse (30_encoding.md R106). -/
theorem decode_eq_op_iff {w : Byte} {i : Instr} : decode w = .op i ↔ encode i = w :=
  ⟨encode_of_decode, fun h => h ▸ decodeOfEncode i⟩

/-- Settles O10: a legal word is the word of what it decodes to, so two words of one operation are equal. -/
theorem encodeOfDecode : Obligations.EncodeOfDecode :=
  ⟨fun _ _ h => encode_of_decode h, fun _ _ _ h h' => (encode_of_decode h).symm.trans (encode_of_decode h')⟩

theorem encode_injective : Function.Injective encode := fun i j h =>
  Decoded.op.inj (by rw [← decodeOfEncode i, ← decodeOfEncode j, h])

/-- Settles O8: each of the fourteen words is the word of its operation. -/
theorem writtenWordsDecode : Obligations.WrittenWordsDecode := by
  unfold Obligations.WrittenWordsDecode
  simp only [decode_eq_op_iff]
  decide

/-! ### Reserved words -/

theorem decode_reserved_iff {w : Byte} :
    (∃ why, decode w = .reserved why) ↔
      w.toNat / 16 ∈ [0, 10, 11, 12, 13, 14] ∨
      (w.toNat / 16 = 3 ∧ 5 ≤ w.toNat % 8) ∨
      (w.toNat / 16 ∈ [2, 4, 5, 6, 7, 15] ∧ w.toNat / 8 % 2 = 1) ∨
      (w.toNat / 16 ∈ [1, 2, 4, 5, 6, 7, 8, 9, 15] ∧ w.toNat % 8 ≠ 0) := by
  unfold decode
  rw [opcField_toNat]
  split
  case h_1 hopc | h_8 hopc | h_9 hopc => simp [decodeSelected_reserved_iff, hopc]
  case h_3 hopc => simp [decodeSamp_reserved_iff, hopc]
  case h_2 hopc | h_4 hopc | h_5 hopc | h_6 hopc | h_7 hopc | h_10 hopc => simp [decodePlain_reserved_iff, hopc]
  case h_11 =>
    have := w.isLt
    refine iff_of_true ⟨_, rfl⟩ (.inl ?_)
    simp only [List.mem_cons, List.not_mem_nil, or_false, imp_false] at *
    omega

theorem not_legalWord_iff {w : Byte} : ¬ legalWord w = true ↔ ∃ why, decode w = .reserved why := by
  rw [legalWord_iff]
  cases decode w <;> simp

/-- Every operation with every operand, in the order of the words. -/
def everyInstr : List Instr :=
  [Instr.emit false, .emit true, .wait] ++ (List.finRange 5).map (Instr.samp .off) ++
  (List.finRange 5).map (Instr.samp .on) ++
  [Instr.canc, .recv, .clsf, .map, .drv .left, .drv .right, .dispLabel, .dispValues, .loop]

theorem mem_everyInstr (i : Instr) : i ∈ everyInstr := by
  cases i with
  | emit b => cases b <;> simp [everyInstr]
  | samp bank ch => cases bank <;> simp [everyInstr]
  | drv side => cases side <;> simp [everyInstr]
  | wait | canc | recv | clsf | map | dispLabel | dispValues | loop => simp [everyInstr]

/-- The legal bytes are the words of the operations, each once. -/
theorem legalBytes_perm :
    ((List.range 256).filter fun n => legalWord (BitVec.ofNat 8 n)).Perm
      (everyInstr.map fun i => (encode i).toNat) := by
  have hinj : Function.Injective fun i => (encode i).toNat := fun i j h => encode_injective (BitVec.eq_of_toNat_eq h)
  have hnodup : everyInstr.Nodup := by decide
  refine (List.perm_ext_iff_of_nodup (List.nodup_range.filter _) (hnodup.map hinj)).2 fun n => ?_
  simp only [List.mem_filter, List.mem_range, List.mem_map, legalWord_iff]
  constructor
  · rintro ⟨hn, i, hi⟩
    exact ⟨i, mem_everyInstr i, by rw [encode_of_decode hi, BitVec.toNat_ofNat, Nat.mod_eq_of_lt hn]⟩
  · rintro ⟨i, -, rfl⟩
    exact ⟨(encode i).isLt, i, decode_eq_op_iff.2 (by rw [BitVec.ofNat_toNat, BitVec.setWidth_eq])⟩

/-- The word a refusal names stands in the ROM and is reserved. -/
theorem exists_of_firstReserved {rom : Vector Byte 23} {w : Byte} (h : firstReserved rom = some w) :
    ∃ j : Phase, rom[j] = w ∧ ∃ why, decode w = .reserved why := by
  obtain ⟨j, hj, hw⟩ := List.mem_iff_getElem.1 (List.mem_of_find?_eq_some h)
  have hlegal : ¬ legalWord w = true := by simpa using List.find?_some h
  exact ⟨⟨j, by simpa using hj⟩, by simpa using hw, not_legalWord_iff.1 hlegal⟩

theorem step_eq_perform {s : State} (hw : s.cfg.wf = true) (ht : s.cfg.timeoutMode = false) (hr : s.rstLevel = false) :
    step s = perform s.rstTaken := by
  simp [step, tick, hw, ht, hr]

/-- A ROM with a reserved word is refused, by the name of the first (30_encoding.md R94). -/
theorem step_refused_of_reserved {s : State} {k : Phase} {why : ReservedWhy} (hw : s.cfg.wf = true)
    (ht : s.cfg.timeoutMode = false) (hr : s.rstLevel = false) (hk : decode s.rom[k] = .reserved why) :
    ∃ w, firstReserved s.rom = some w ∧ step s = .refused (.reservedWord w) := by
  cases hfirst : firstReserved s.rom with
  | none => exact absurd (firstReserved_eq_none.1 hfirst k) (not_legalWord_iff.2 ⟨why, hk⟩)
  | some w => exact ⟨w, rfl, by rw [step_eq_perform hw ht hr]; simp [perform, hfirst]⟩

/-- Settles O5: the reserved words row by row of the table, the legal ones counted as operations, and the refusal by the
first reserved word of the ROM. -/
theorem reservedWordsAreRefused : Obligations.ReservedWordsAreRefused := by
  refine ⟨fun _ => decode_reserved_iff, legalBytes_perm.length_eq, fun rp k => ⟨_, decode_stepRom rp k⟩, ?_⟩
  intro s k why hw ht hr hk
  obtain ⟨w, hfirst, hstep⟩ := step_refused_of_reserved hw ht hr hk
  obtain ⟨j, rfl, why', hj⟩ := exists_of_firstReserved hfirst
  exact ⟨j, why', hj, hstep⟩

/-! ### The step sequences and the place of the receive -/

/-- Settles O11: the listed operations are those of `romOps`, and reset loads the sequence of `RECV_POS`. -/
theorem stepSequencesAreAsListed : Obligations.StepSequencesAreAsListed :=
  ⟨map_decode_stepRom .preClassify, map_decode_stepRom .cycleStart, fun _ => rfl⟩

theorem serRecv_not_mem_acquisitionEvents (x : CycleInput) (v : Nat) : .serRecv v ∉ acquisitionEvents x := by
  simp [acquisitionEvents]

theorem acquisitionEvents_length (x : CycleInput) : (acquisitionEvents x).length = 12 := by simp [acquisitionEvents]

theorem cycleEvents_of_preClassify {c : Config} (h : c.recvPos = .preClassify) (r : Retained) (x : CycleInput) :
    cycleEvents c r x = acquisitionEvents x ++ .serRecv x.base :: driveEvents c r x := by
  simp [cycleEvents, driveEvents, h]

theorem cycleEvents_of_cycleStart {c : Config} (h : c.recvPos = .cycleStart) (r : Retained) (x : CycleInput) :
    cycleEvents c r x = .serRecv x.base :: (acquisitionEvents x ++ driveEvents c r x) := by
  simp [cycleEvents, driveEvents, h]

/-- In either place, taking the receive out leaves the acquisition and the drive. -/
theorem cycle_erase_serRecv (c : Config) (r : Retained) (x : CycleInput) :
    (cycle c r x).2.erase (.serRecv x.base) = acquisitionEvents x ++ driveEvents c (cycle c r x).1 x := by
  unfold cycle
  cases h : c.recvPos with
  | preClassify =>
    rw [cycleEvents_of_preClassify h, List.erase_append_right _ (serRecv_not_mem_acquisitionEvents x _),
      List.erase_cons_head]
  | cycleStart => rw [cycleEvents_of_cycleStart h, List.erase_cons_head]

/-- Settles O42: no value reads `RECV_POS`, and the event lists differ in the place of the receive only. -/
theorem receivePositionMovesOneEventOnly : Obligations.ReceivePositionMovesOneEventOnly := by
  intro c r x
  refine ⟨rfl, ?_, ?_, ?_⟩
  · rw [cycle_erase_serRecv, cycle_erase_serRecv]
    rfl
  · rw [cycle, cycleEvents_of_preClassify rfl, List.getElem?_append_right (by rw [acquisitionEvents_length]),
      acquisitionEvents_length]
    rfl
  · rw [cycle, cycleEvents_of_cycleStart rfl]
    rfl

end Sys2Proof.Machine
end

section
/-! PROOFS. The statements of 40_acquisition.md: what EMIT, WAIT, SAMP and CANC do, a SAMP the ADC leaves unanswered,
and the cancelling subtraction. -/

namespace Sys2Proof.Machine

/-! ### A SAMP the ADC driver does not answer -/

/-- A runnable block with `rst` low performs the operation at `PH` (43_display_loop.md R184). -/
theorem step_eq_exec_of_decode {s : State} {i : Instr} (h : Runnable s) (hr : s.rstLevel = false)
    (hd : decode s.fetch = .op i) : step s = exec i s.rstTaken := by
  have hlegal := firstReserved_of_runnable h
  obtain ⟨hw, ht, -⟩ := h
  exact (step_eq_perform hw ht hr).trans (perform_of_decode hlegal hd)

/-- One unanswered attempt moves the ADC's inputs on and nothing else. -/
theorem step_of_unanswered_samp {s : State} {bank : Bank} {ch : Channel} (h : Runnable s) (hr : s.rstIn = [])
    (hd : decode s.fetch = .op (.samp bank ch)) (ha : s.adcAnswer = none) : step s = .next s.adcPolled := by
  have hlow : s.rstLevel = false := by simp [State.rstLevel, hr]
  rw [step_eq_exec_of_decode h hlow hd, State.rstTaken_of_nil hr]
  exact exec_samp_eq_next.2 (.inr ⟨ha, rfl⟩)

/-- Settles O15, by induction on the attempts: each leaves a state that meets the same hypotheses. -/
theorem unansweredSampHolds : Obligations.UnansweredSampHolds := by
  intro n
  induction n with
  | zero =>
    intro s bank ch rest _ _ _ hin
    obtain rfl : s.adcIn = rest := hin
    exact run_zero s
  | succ n ih =>
    intro s bank ch rest h hr hd hin
    have ha : s.adcAnswer = none := State.adcAnswer_of_listed hin
    have hin' : s.adcPolled.adcIn = List.replicate n none ++ rest := congrArg List.tail hin
    calc core.run (n + 1) s
      _ = core.run n s.adcPolled := run_succ_of_next (step_of_unanswered_samp h hr hd ha) n
      _ = .next { s.adcPolled with adcIn := rest, adcPolls := s.adcPolls + 1 + n } :=
        ih s.adcPolled bank ch rest h hr hd hin'
      _ = .next { s with adcIn := rest, adcPolls := s.adcPolls + (n + 1) } := by
        rw [Nat.add_assoc, Nat.add_comm 1 n]
        rfl

/-! ### The cancelling subtraction -/

/-- `csub` is the exact integer difference, floored at 0 (40_acquisition.md R125). -/
theorem csub_eq_max (on off : Byte) : ((csub on off).toNat : Int) = max ((on.toNat : Int) - (off.toNat : Int)) 0 := by
  rw [csub_toNat]
  omega

theorem csub_eq_zero {on off : Byte} (h : on.toNat ≤ off.toNat) : csub on off = 0 :=
  BitVec.eq_of_toNat_eq ((csub_toNat on off).trans (Nat.sub_eq_zero_of_le h))

/-- Settles O16: the five values are `cancelAll`, each an exact difference floored at 0. -/
theorem cancComputesTheFiveDifferences : Obligations.CancComputesTheFiveDifferences := by
  refine ⟨decode_eq_op_iff.2 rfl, csub_eq_max, fun s p hp => ?_⟩
  refine ⟨cancelAll s.on s.off, exec_canc_eq_next.2 ⟨p, hp, rfl⟩, fun i => ?_⟩
  rw [cancelAll_getElem]
  exact csub_eq_max _ _

/-- Settles O17: on bytes `csub` is the truncated subtraction of naturals, and a reading cancels itself to 0. -/
theorem cancelledValueRange : Obligations.CancelledValueRange := by
  refine ⟨fun on off => ⟨?_, Nat.le_of_lt_succ on.isLt⟩, fun _ _ h => csub_eq_zero h, fun on off h => ?_, fun c v h => ?_⟩
  · rw [csub_toNat]
    exact Nat.sub_le _ _
  · rw [csub_toNat]
    exact Nat.sub_add_cancel h
  · rw [csub_eq_zero (le_refl v.toNat)]
    exact decide_eq_true h

/-! ### What each operation answers below step 22 -/

/-- Settles O12: EMIT ends by `advance`, whatever the level was. -/
theorem emitDrivesTheEmitter : Obligations.EmitDrivesTheEmitter :=
  ⟨decode_eq_op_iff.2 rfl, decode_eq_op_iff.2 rfl, fun _ _ p hp => exec_emit_eq_next.2 ⟨p, hp, rfl⟩⟩

/-- Settles O13: WAIT ends by `advance` from the state it found. -/
theorem waitOnlyAdvances : Obligations.WaitOnlyAdvances :=
  ⟨decode_eq_op_iff.2 rfl, fun _ p hp => exec_wait_eq_next.2 ⟨p, hp, rfl⟩⟩

/-- The SAMP words: bank in the selector bit, channel in the low bits (30_encoding.md R91, R92). -/
theorem encode_samp : ∀ (bank : Bank) (ch : Channel),
    encode (.samp bank ch) = BitVec.ofNat 8 ((if bank = .on then 0x38 else 0x30) + ch.val) := by
  intro bank
  cases bank <;> decide

/-- Settles O14: an answered SAMP completes with the reading in the register its word names. -/
theorem sampTakesTheReading : Obligations.SampTakesTheReading := by
  refine ⟨fun ch => ⟨decode_eq_op_iff.2 (encode_samp .on ch), decode_eq_op_iff.2 (encode_samp .off ch)⟩, ?_⟩
  intro ch v s p hp hv
  exact ⟨exec_samp_eq_next.2 (.inl ⟨p, v, hp, hv, rfl⟩), exec_samp_eq_next.2 (.inl ⟨p, v, hp, hv, rfl⟩)⟩

end Sys2Proof.Machine
end

section
/-! PROOFS. The statements of 41_classifier.md: what RECV and CLSF do, a RECV the serial driver leaves unanswered, and the
pattern table. -/

namespace Sys2Proof.Machine

/-! ### A RECV the serial driver does not answer -/

/-- Where each of `n` steps applies `f`, the run is `f` iterated. -/
theorem run_eq_iterate {f : State → State} {n : Nat} :
    ∀ {s : State}, (∀ k < n, step (f^[k] s) = .next (f (f^[k] s))) → core.run n s = .next (f^[n] s) := by
  induction n with
  | zero => exact fun _ => run_zero _
  | succ n ih =>
    intro s h
    have hfirst : step s = .next (f s) := h 0 n.succ_pos
    have hrest : ∀ k < n, step (f^[k] (f s)) = .next (f (f^[k] (f s))) := fun k hk => h (k + 1) (Nat.succ_lt_succ hk)
    exact (run_succ_of_next hfirst n).trans (ih hrest)

/-- `n` attempts at the serial driver move its inputs on by `n` and nothing else. -/
theorem State.serPolled_iterate (s : State) (n : Nat) :
    State.serPolled^[n] s = { s with serIn := s.serIn.drop n, serPolls := s.serPolls + n } := by
  induction n with
  | zero => rfl
  | succ n ih =>
    rw [Function.iterate_succ_apply', ih, State.serPolled, List.tail_drop]
    rfl

theorem State.serAnswer_of_unanswered {s : State} (h : s.serIn.head? = some none) : s.serAnswer = none := by
  obtain ⟨rest, hin⟩ := List.head?_eq_some_iff.1 h
  simp [State.serAnswer, hin]

/-- One unanswered attempt moves the serial driver's inputs on and nothing else. -/
theorem step_of_unanswered_recv {s : State} (h : Runnable s) (hr : s.rstIn = []) (hd : decode s.fetch = .op .recv)
    (ha : s.serAnswer = none) : step s = .next s.serPolled := by
  have hlow : s.rstLevel = false := by simp [State.rstLevel, hr]
  rw [step_eq_exec_of_decode h hlow hd, State.rstTaken_of_nil hr]
  exact exec_recv_eq_next.2 (.inr ⟨ha, rfl⟩)

/-- Settles O19: each of the first `n` attempts finds no answer, in a state that differs in the serial inputs only. -/
theorem unansweredRecvHolds : Obligations.UnansweredRecvHolds := by
  intro n s rest h hr hd hin
  have hhold : ∀ k < n, step (State.serPolled^[k] s) = .next (State.serPolled^[k] s).serPolled := by
    intro k hk
    have hnone : (s.serIn.drop k).head? = some none := by
      rw [List.head?_drop, hin, List.getElem?_append_left (by simpa using hk)]
      simp [hk]
    rw [State.serPolled_iterate]
    exact step_of_unanswered_recv h hr hd (State.serAnswer_of_unanswered hnone)
  have hrest : s.serIn.drop n = rest := by simp [hin]
  rw [run_eq_iterate hhold, State.serPolled_iterate, hrest]

/-! ### The pattern table -/

/-- Settles O21: the first match in the table, for each of the 32 values of `PAT`. -/
theorem categoryOfEveryPattern : Obligations.CategoryOfEveryPattern := by
  unfold Obligations.CategoryOfEveryPattern
  decide

/-- The rows of the table, tried in order (41_classifier.md R143). -/
theorem classify_eq (p : BitVec 5) :
    classify p = if p = 0b00100 then .fwdNarrow else if p = 0b01110 then .fwdWide else if p = 0b10000 then .left
      else if p = 0b00001 then .right else if p = 0b00000 then .stop else .none := rfl

/-! ### What RECV and CLSF answer -/

/-- Settles O18: `blocking` with the serial driver's answer, which `ser_data` bounds. -/
theorem recvTakesTheCommandOrHolds : Obligations.RecvTakesTheCommandOrHolds :=
  ⟨decode_eq_op_iff.2 rfl, fun _ _ hv => State.serAnswer_lt hv,
   fun _ p v hp hv => exec_recv_eq_next.2 (.inl ⟨p, v, hp, hv, rfl⟩),
   fun _ ha => exec_recv_eq_next.2 (.inr ⟨ha, rfl⟩)⟩

/-- Settles O20: CLSF writes `patternOf` and its class; each bit is a comparison, and the class tries the rows in order. -/
theorem clsfComparesAndClassifies : Obligations.ClsfComparesAndClassifies :=
  ⟨decode_eq_op_iff.2 rfl, fun s p hp =>
    ⟨patternOf s.cfg s.cv, classify (patternOf s.cfg s.cv), exec_clsf_eq_next.2 ⟨p, hp, rfl⟩,
     patternOf_getLsbD s.cfg s.cv, classify_eq _⟩⟩

/-- Settles O22: equal comparisons give equal patterns, and CLSF writes the pattern and a function of it. -/
theorem classifierSeesComparisonsOnly : Obligations.ClassifierSeesComparisonsOnly := by
  intro s s' t t' hcmp ht ht'
  obtain ⟨p, -, rfl⟩ := exec_clsf_eq_next.1 ht
  obtain ⟨p', -, rfl⟩ := exec_clsf_eq_next.1 ht'
  have hpat : patternOf s.cfg s.cv = patternOf s'.cfg s'.cv := patternOf_congr fun i => decide_eq_decide.2 (hcmp i)
  exact ⟨hpat, congrArg classify hpat⟩

end Sys2Proof.Machine
end

section
/-! PROOFS. The statements of 42_drive_mapper.md: what MAP and DRV do, the turn division and the saturation, and the triple
over several cycles. -/

namespace Sys2Proof.Machine

/-! ### Saturation -/

/-- A speed in the drive range is kept (42_drive_mapper.md R163). -/
theorem sat8_of_mem_range {c : Config} (h : c.wf = true) {S : Int} (h0 : 0 ≤ S) (h255 : S ≤ 255) :
    ((sat8 c S).toNat : Int) = S := by
  rw [sat8_toNat h, max_eq_left h0, min_eq_left h255]

theorem sat8_of_neg {c : Config} (h : c.wf = true) {S : Int} (hS : S < 0) : sat8 c S = 0 := by
  have hmin : ((sat8 c S).toNat : Int) = 0 := by rw [sat8_toNat h, max_eq_right hS.le]; rfl
  exact BitVec.eq_of_toNat_eq (Int.ofNat_inj.1 hmin)

theorem sat8_of_gt {c : Config} (h : c.wf = true) {S : Int} (hS : 255 < S) : sat8 c S = 255 := by
  have hmax : ((sat8 c S).toNat : Int) = 255 := by
    rw [sat8_toNat h, max_eq_left (by omega), min_eq_right hS.le]
  exact BitVec.eq_of_toNat_eq (Int.ofNat_inj.1 hmax)

/-- What a speed register can hold is in range, so saturating it again changes nothing. -/
theorem sat8_byte {c : Config} (h : c.wf = true) (v : Byte) : sat8 c (v.toNat : Int) = v := by
  have hv : v.toNat ≤ 255 := Nat.le_of_lt_succ v.isLt
  rw [sat8_natCast h, min_eq_left hv, BitVec.ofNat_toNat, BitVec.setWidth_eq]

/-- Settles O25: the three ranges of `S`, and every byte is a fixed point of `sat8`. -/
theorem saturationLaw : Obligations.SaturationLaw := fun _ _ h =>
  ⟨Int.natCast_nonneg _, Int.ofNat_le.2 (Nat.le_of_lt_succ (BitVec.isLt _)), sat8_of_mem_range h, sat8_of_neg h,
   sat8_of_gt h, sat8_byte h _⟩

/-! ### The turn division -/

/-- Settles O24: `turnSpeed` is the quotient of naturals by a divisor that is not 0. -/
theorem turnDivisionDiscardsTheRemainder : Obligations.TurnDivisionDiscardsTheRemainder := by
  refine ⟨fun c base h => ?_, by decide⟩
  obtain ⟨-, -, hdiv, -⟩ := wf_bounds h
  exact ⟨Nat.mul_div_le base c.turnDiv, Nat.lt_mul_div_succ base hdiv⟩

/-! ### What MAP and DRV answer below step 22 -/

/-- MAP on a match: both speeds saturated at 255, and the label (42_drive_mapper.md R160). -/
theorem exec_map_of_match {s : State} {p : Phase} (hw : s.cfg.wf = true) (hp : p.val = s.ph.val + 1) {l r : Nat}
    {lab : Label} (h : speedRule s.cfg s.base s.cat = some ((l : Int), (r : Int), lab)) :
    exec .map s = .next { s with
      ls := BitVec.ofNat 8 (min l 255), rs := BitVec.ofNat 8 (min r 255), lbl := lab, ph := p } := by
  refine exec_map_eq_next.2 ⟨p, hp, ?_⟩
  rw [mapDrive_of_match h, sat8_natCast hw, sat8_natCast hw]
  rfl

/-- Settles O23: each category's row of `speedRule`, its speeds saturated. -/
theorem mapWritesTheDriveOutput : Obligations.MapWritesTheDriveOutput := by
  refine ⟨decode_eq_op_iff.2 rfl, fun s p hw hp => ⟨?forward, ?left, ?right, ?stop, ?unmatched⟩⟩
  case forward => rintro (hcat | hcat) <;> exact exec_map_of_match hw hp (by rw [hcat]; rfl)
  case left => exact fun hcat => exec_map_of_match hw hp (by rw [hcat]; rfl)
  case right => exact fun hcat => exec_map_of_match hw hp (by rw [hcat]; rfl)
  case stop => exact fun hcat => exec_map_of_match (l := 0) (r := 0) hw hp (by rw [hcat]; rfl)
  case unmatched =>
    intro hcat
    exact exec_map_eq_next.2 ⟨p, hp, by rw [mapDrive_of_cat_none hcat]; rfl⟩

/-- Settles O28: DRV ends by `advance` with the one event, of the register its word names. -/
theorem drvHandsOverOneSpeed : Obligations.DrvHandsOverOneSpeed :=
  ⟨decode_eq_op_iff.2 rfl, decode_eq_op_iff.2 rfl, fun _ p hp =>
    ⟨exec_drv_eq_next.2 ⟨p, hp, rfl⟩, exec_drv_eq_next.2 ⟨p, hp, rfl⟩⟩⟩

/-! ### The triple over several cycles -/

/-- A cycle that matches no row retains the triple (42_drive_mapper.md R164). -/
theorem cycleTriple_of_category_none {c : Config} {x : CycleInput} (r : Retained) (h : x.category c = .none) :
    cycleTriple c r x = r :=
  cycleTriple_of_no_match r (speedRule_eq_none.2 h)

/-- Settles O26, by induction on the cycles: the first retains the triple, and the rest start from the same one. -/
theorem unmatchedCyclesRetainTheTriple : Obligations.UnmatchedCyclesRetainTheTriple := by
  intro c r xs hxs
  induction xs with
  | nil => rfl
  | cons x xs ih =>
    obtain ⟨hx, hrest⟩ := List.forall_mem_cons.1 hxs
    rw [List.foldl_cons, cycleTriple_of_category_none r hx]
    exact ih hrest

/-- The category of a cycle depends on nothing but the five comparisons (41_classifier.md R146). -/
theorem category_congr {c : Config} {x x' : CycleInput}
    (h : ∀ i : Channel, x.cancelled[i].toNat < c.thr ↔ x'.cancelled[i].toNat < c.thr) : x.category c = x'.category c :=
  congrArg classify (patternOf_congr fun i => decide_eq_decide.2 (h i))

/-- A cycle's effect on the triple is a function of its category and its command. -/
theorem cycleTriple_congr {c : Config} {x x' : CycleInput} (hcat : x.category c = x'.category c) (hb : x.base = x'.base)
    (r : Retained) : cycleTriple c r x = cycleTriple c r x' := by
  unfold cycleTriple
  rw [hcat, hb]

/-- A matched cycle forgets the triple before, an unmatched one keeps it, so a cycle twice is the cycle once. -/
theorem cycleTriple_idem (c : Config) (r : Retained) (x : CycleInput) :
    cycleTriple c (cycleTriple c r x) x = cycleTriple c r x := by
  cases h : speedRule c x.base (x.category c) with
  | none => rw [cycleTriple_of_no_match _ h]
  | some rule => rw [cycleTriple_of_match _ h, cycleTriple_of_match _ h]

/-- Settles O27: the second cycle has the first one's effect, and that effect is idempotent. -/
theorem repeatedCycleGivesTheSameOutput : Obligations.RepeatedCycleGivesTheSameOutput := by
  intro c r x x' hcmp hbase
  calc cycleTriple c (cycleTriple c r x) x'
    _ = cycleTriple c (cycleTriple c r x) x := (cycleTriple_congr (category_congr hcmp) hbase _).symm
    _ = cycleTriple c r x := cycleTriple_idem c r x

end Sys2Proof.Machine
end

section
/-! PROOFS. The statements of 43_display_loop.md: the step and how it moves `PH`, the display writes and the lengths of
their lines, LOOP, and the block that never stops. -/

namespace Sys2Proof.Machine

/-! ### One step -/

/-- Settles O3: a runnable ROM passes every check of `tick`, which leaves the operation at `PH`. -/
theorem stepPerformsTheDecodedOperation : Obligations.StepPerformsTheDecodedOperation :=
  fun _ _ h hr hd => step_eq_exec_of_decode h hr hd

/-- Where an operation that goes on leaves `PH` (43_display_loop.md R184). -/
theorem exec_ph {i : Instr} {s t : State} (h : exec i s = .next t) :
    (Holds s i → t.ph = s.ph) ∧ (i = .loop → t.ph.val = 0) ∧ (¬ Holds s i → i ≠ .loop → t.ph.val = s.ph.val + 1) := by
  cases i with
  | samp bank ch => obtain ⟨p, v, hp, hv, rfl⟩ | ⟨hv, rfl⟩ := exec_samp_eq_next.1 h <;> simp [Holds, *]
  | recv => obtain ⟨p, v, hp, hv, rfl⟩ | ⟨hv, rfl⟩ := exec_recv_eq_next.1 h <;> simp [Holds, *]
  | loop => obtain rfl := exec_loop_eq_next.1 h; simp [Holds]
  | emit _ | wait | canc | clsf | map | drv _ | dispLabel | dispValues =>
    obtain ⟨p, hp, rfl⟩ := advance_eq_next.1 h
    simp [Holds, hp]

/-- Whether a transaction is answered does not depend on `rst`. -/
theorem holds_rstTaken (s : State) (i : Instr) : Holds s.rstTaken i ↔ Holds s i := by cases i <;> rfl

/-- Settles O4: with `rst` low a step that goes on is the operation at `PH` going on. -/
theorem stepAdvancesPhase : Obligations.StepAdvancesPhase := by
  intro s t i hr hd h
  obtain ⟨-, -, ⟨hr', -⟩ | ⟨-, j, -, hj, he⟩⟩ := tick_eq_next.1 h
  · simp [hr] at hr'
  · obtain rfl : i = j := Decoded.op.inj (hd.symm.trans hj)
    simpa only [holds_rstTaken, State.rstTaken_ph] using exec_ph he

/-! ### A block that never stops -/

/-- Below step 22 a transaction goes on, answered or not. -/
theorem blocking_goes_on {α : Type} {s : State} {p : Phase} (hp : p.val = s.ph.val + 1) (answer : Option α) (held : State)
    (done : α → State) : ∃ t, blocking s answer held done = .next t := by
  cases answer with
  | none => exact ⟨_, blocking_of_none⟩
  | some v => exact ⟨_, blocking_of_some hp⟩

/-- Below step 22 every operation goes on. -/
theorem exec_goes_on {s : State} (h : s.ph.val < 22) (i : Instr) : ∃ t, exec i s = .next t := by
  obtain ⟨p, hp⟩ : ∃ p : Phase, p.val = s.ph.val + 1 := ⟨⟨s.ph.val + 1, by omega⟩, rfl⟩
  cases i with
  | samp _ _ | recv => exact blocking_goes_on hp _ _ _
  | loop => exact ⟨_, rfl⟩
  | emit _ | wait | canc | clsf | map | drv _ | dispLabel | dispValues => exact ⟨_, advance_of_succ hp _⟩

/-- The operation at `PH` of a step sequence goes on: at step 22 it is LOOP. -/
theorem exec_opAt_goes_on (rp : RecvPos) (s : State) : ∃ t, exec (opAt rp s.ph) s = .next t := by
  obtain h | h := Nat.lt_or_eq_of_le (Nat.le_of_lt_succ s.ph.isLt)
  · exact exec_goes_on h _
  · have hlast : s.ph = 22 := Fin.ext h
    rw [hlast, opAt_last]
    exact ⟨_, rfl⟩

/-- No step of a block that meets the invariant stops. -/
theorem Inv.step_goes_on {s : State} (h : Inv s) : ∃ t, step s = .next t := by
  obtain ⟨hw, ht⟩ := h.config
  cases hr : s.rstLevel with
  | true => exact ⟨_, tick_eq_next.2 ⟨ht, hw, .inl ⟨hr, rfl⟩⟩⟩
  | false =>
    obtain ⟨t, he⟩ := exec_opAt_goes_on s.cfg.recvPos s.rstTaken
    refine ⟨t, tick_eq_next.2 ⟨ht, hw, .inr ⟨hr, _, ?_, ?_, he⟩⟩⟩
    · rw [h.rom]; exact firstReserved_stepRom _
    · rw [State.fetch, h.rom]; exact decode_stepRom _ _

/-- Settles O40: the invariant lets every step go on, and every step keeps it. -/
theorem theBlockRunsForEver : Obligations.TheBlockRunsForEver :=
  run_of_invariant Inv stepKeepsTheInvariant fun _ h => h.step_goes_on

/-! ### DISP and LOOP below step 22 -/

/-- Settles O29: DISP LABEL ends by `advance` with the one event, whose text is that of each label. -/
theorem dispLabelWritesTheLabelRow : Obligations.DispLabelWritesTheLabelRow := by
  refine ⟨decode_eq_op_iff.2 rfl, fun s p hp => exec_dispLabel_eq_next.2 ⟨p, hp, ?_⟩⟩
  refine congrArg (fun text => (s.record (.dispWrite s.cfg.labelRow text)).setPh p) ?_
  cases s.lbl <;> rfl

/-- The value row is the field of each channel, from the left (43_display_loop.md R181). -/
theorem valueText_eq_flatMap (c : Config) (cv : Bank5) :
    valueText c cv = (List.finRange 5).flatMap fun i : Channel => fmt c.dispOverflow cv[i] c.dispFw[i] := by
  simp [valueText, List.finRange_succ]

/-- Settles O30: DISP VALUES ends by `advance` with the one event, whose text is the five fields. -/
theorem dispValuesWritesTheValueRow : Obligations.DispValuesWritesTheValueRow := by
  refine ⟨decode_eq_op_iff.2 rfl, rfl, fun s p hp => exec_dispValues_eq_next.2 ⟨p, hp, ?_⟩⟩
  rw [valueText_eq_flatMap]
  rfl

/-- Settles O33: LOOP looks at no step. -/
theorem loopClosesTheCycle : Obligations.LoopClosesTheCycle :=
  ⟨decode_eq_op_iff.2 rfl, fun _ => exec_loop_eq_next.2 rfl⟩

/-! ### The text of a field -/

/-- The first decimal digit of a number is 0 for 0 alone: it is that of the number without its last digit. -/
theorem toDigits_head?_ne_zero {n : Nat} (hn : 0 < n) : (Nat.toDigits 10 n).head? ≠ some '0' := by
  induction n using Nat.strongRecOn with
  | ind n ih =>
    by_cases h : n < 10
    · simp [Nat.toDigits_of_lt_base h, hn.ne']
    · have hdiv : 0 < n / 10 := Nat.div_pos (by omega) (by omega)
      rw [Nat.toDigits_of_base_le (by omega) (by omega), List.head?_append_of_ne_nil _ Nat.toDigits_ne_nil]
      exact ih (n / 10) (by omega) hdiv

theorem decimal_eq_of_head?_zero {v : Byte} (h : (decimal v).head? = some '0') : decimal v = ['0'] := by
  have hv : v.toNat = 0 := by
    by_contra hne
    exact toDigits_head?_ne_zero (Nat.pos_of_ne_zero hne) h
  rw [decimal, hv, Nat.toDigits_zero]

theorem decimal_digit {v : Byte} {ch : Char} (h : ch ∈ decimal v) : 48 ≤ ch.toNat ∧ ch.toNat ≤ 57 := by
  have hdigit : ch.isDigit = true := Nat.isDigit_of_mem_toDigits (by omega) (by omega) h
  simpa [Char.isDigit, UInt32.le_iff_toNat_le] using hdigit

theorem decimal_reads_back (v : Byte) : (decimal v).foldl (fun n ch => 10 * n + (ch.toNat - 48)) 0 = v.toNat :=
  Nat.ofDigitChars_eq_foldl.symm.trans Nat.ofDigitChars_ten_toDigits

/-- Settles O31: the digits are `decimal v`, and `fmt` pads them by definition. -/
theorem fieldIsRightJustifiedDecimal : Obligations.FieldIsRightJustifiedDecimal := fun v _ =>
  ⟨decimal v, rfl, fun _ => decimal_digit, Nat.toDigits_ne_nil, decimal_eq_of_head?_zero, decimal_reads_back v⟩

/-! ### The length of a line -/

theorem decimal_length_le_three (v : Byte) : (decimal v).length ≤ 3 :=
  (Nat.length_toDigits_le_iff (by omega) (by omega)).2 (v.isLt.trans (by omega))

theorem fmt_three_length (v : Byte) : (fmt .expand v 3).length = 3 := by
  rw [fmt_expand_length, max_eq_left (decimal_length_le_three v)]

theorem fmt_two_length (v : Byte) : (fmt .expand v 2).length = if v.toNat ≤ 99 then 2 else 3 := by
  rw [fmt_expand_length, decimal_length]
  split_ifs <;> omega

theorem valueText_length (c : Config) (cv : Bank5) :
    (valueText c cv).length = (fmt c.dispOverflow cv[0] c.dispFw[0]).length + (fmt c.dispOverflow cv[1] c.dispFw[1]).length
      + (fmt c.dispOverflow cv[2] c.dispFw[2]).length + (fmt c.dispOverflow cv[3] c.dispFw[3]).length
      + (fmt c.dispOverflow cv[4] c.dispFw[4]).length := by
  simp only [valueText, List.length_append]

theorem valueText_reference_length (cv : Bank5) :
    (valueText Config.reference cv).length = if cv[4].toNat ≤ 99 then 14 else 15 := by
  calc (valueText Config.reference cv).length
    _ = (fmt .expand cv[0] 3).length + (fmt .expand cv[1] 3).length + (fmt .expand cv[2] 3).length
        + (fmt .expand cv[3] 3).length + (fmt .expand cv[4] 2).length := valueText_length _ _
    _ = 3 + 3 + 3 + 3 + if cv[4].toNat ≤ 99 then 2 else 3 := by simp only [fmt_three_length, fmt_two_length]
    _ = if cv[4].toNat ≤ 99 then 14 else 15 := by split_ifs <;> rfl

/-- What `wf` asks of the two lines (log 9). -/
theorem lines_of_wf {c : Config} (h : c.wf = true) :
    10 ≤ c.dispCols ∧ c.fieldMax c.dispFw[0] + c.fieldMax c.dispFw[1] + c.fieldMax c.dispFw[2] + c.fieldMax c.dispFw[3]
      + c.fieldMax c.dispFw[4] ≤ c.dispCols := by
  simp only [Config.wf, Config.linesOk, Bool.and_eq_true, decide_eq_true_eq] at h
  obtain ⟨-, ⟨-, hlabel⟩, hvalues⟩ := h
  exact ⟨hlabel, hvalues⟩

theorem valueText_length_le {c : Config} (h : c.wf = true) (cv : Bank5) : (valueText c cv).length ≤ c.dispCols := by
  obtain ⟨-, hsum⟩ := lines_of_wf h
  rw [valueText_length]
  refine le_trans ?_ hsum
  gcongr <;> exact fmt_length_le c _ _

theorem labelText_length_le (l : Label) : (labelText l).length ≤ 10 := by cases l <;> decide

/-- Settles O32: the widths of the reference block, and the room that `wf` asks for. -/
theorem displayLinesFit : Obligations.DisplayLinesFit :=
  ⟨valueText_reference_length, fun _ cv l h =>
    ⟨valueText_length_le h cv, (labelText_length_le l).trans (lines_of_wf h).1⟩⟩

end Sys2Proof.Machine
end

section
/-! PROOFS. The statements of 60_exceptions.md: that no operation has an exceptional outcome, what the three error
conditions are and do, and what the motors were last given. -/

namespace Sys2Proof.Machine

/-! ### Completing or holding -/

/-- A hold is one attempt at the collaborator asked, at any step, and nothing else (60_exceptions.md R202). -/
theorem exec_of_holds {i : Instr} {s : State} (h : Holds s i) :
    exec i s = .next s.adcPolled ∨ exec i s = .next s.serPolled := by
  cases i with
  | samp bank ch => exact .inl (exec_samp_eq_next.2 (.inr ⟨h, rfl⟩))
  | recv => exact .inr (exec_recv_eq_next.2 (.inr ⟨h, rfl⟩))
  | emit _ | wait | canc | clsf | map | drv _ | dispLabel | dispValues | loop => exact h.elim

/-- Settles O37: `PH` can advance below step 22, LOOP and a hold need no advance, and there is no fault to step to. -/
theorem everyOperationCompletesOrHolds : Obligations.EveryOperationCompletesOrHolds := by
  refine ⟨fun i s h => ?_, fun _ f => nomatch f⟩
  obtain hph | rfl | hholds := h
  · exact exec_goes_on hph i
  · exact ⟨s.setPh 0, exec_loop_eq_next.2 rfl⟩
  · obtain h | h := exec_of_holds hholds <;> exact ⟨_, h⟩

/-! ### What the motors were last given -/

/-- Every cycle closes with the drive events of the triple it ends with, whatever `RECV_POS` puts before them. -/
theorem cycle_events_end_with_driveEvents (c : Config) (r : Retained) (x : CycleInput) :
    ∃ before, (cycle c r x).2 = before ++ driveEvents c (cycle c r x).1 x := ⟨_, rfl⟩

/-- After the drive events the display writes leave the two motor writes standing, and no earlier one counts. -/
theorem lastSpeed_append_driveEvents (past : List Event) (c : Config) (r : Retained) (x : CycleInput) :
    lastSpeed .left (past ++ driveEvents c r x) = some r.ls ∧
      lastSpeed .right (past ++ driveEvents c r x) = some r.rs :=
  ⟨List.foldl_append, List.foldl_append⟩

/-- Settles O46: the history ends with the drive events of the cycle's own triple. -/
theorem motorsWereGivenTheRetainedSpeeds : Obligations.MotorsWereGivenTheRetainedSpeeds := by
  intro c r x past
  obtain ⟨before, hevents⟩ := cycle_events_end_with_driveEvents c r x
  rw [hevents, ← List.append_assoc]
  exact lastSpeed_append_driveEvents _ c _ x

/-! ### When an operation meets a condition -/

/-- HANG_WAIT is a transaction that holds (60_exceptions.md R202). -/
theorem meetsCondition_hangWait_iff {s : State} {i : Instr} : meetsCondition s i .hangWait = true ↔ Holds s i := by
  cases i <;> simp [meetsCondition, Holds]

/-- UNCLASSIFIED shows at MAP, as a pattern without a category (60_exceptions.md R203). -/
theorem meetsCondition_unclassified_iff {s : State} {i : Instr} :
    meetsCondition s i .unclassified = true ↔ i = .map ∧ s.cat = .none := by
  cases i <;> simp [meetsCondition]

/-- OUT_OF_RANGE is met by MAP only (60_exceptions.md R204). -/
theorem meetsCondition_outOfRange_iff {s : State} {i : Instr} :
    meetsCondition s i .outOfRange = true ↔ i = .map ∧ speedOutOfRange s = true := by
  cases i <;> simp [meetsCondition]

/-- Without a category there is no speed to be out of range. -/
theorem cat_ne_none_of_speedOutOfRange {s : State} (h : speedOutOfRange s = true) : s.cat ≠ .none := by
  intro hcat
  simp [speedOutOfRange, speedRule_eq_none.2 hcat] at h

/-- The one condition an operation can meet in a state: MAP's is told by the category, a transaction's is the hang. -/
theorem eq_of_meetsCondition {s : State} {i : Instr} {c : ErrorCondition} (h : meetsCondition s i c = true) :
    c = if i = .map then (if s.cat = .none then .unclassified else .outOfRange) else .hangWait := by
  cases c with
  | hangWait =>
    have hi : i ≠ .map := by rintro rfl; exact meetsCondition_hangWait_iff.1 h
    exact (if_neg hi).symm
  | unclassified =>
    obtain ⟨rfl, hcat⟩ := meetsCondition_unclassified_iff.1 h
    simp [hcat]
  | outOfRange =>
    obtain ⟨rfl, hout⟩ := meetsCondition_outOfRange_iff.1 h
    simp [cat_ne_none_of_speedOutOfRange hout]

/-! ### Speeds out of range -/

/-- No row of the speed rule gives a negative speed, so only the upper bound can be passed (60_exceptions.md R204). -/
theorem speedRule_nonneg {c : Config} {base : Nat} {cat : Category} {l r : Int} {lab : Label}
    (h : speedRule c base cat = some (l, r, lab)) : 0 ≤ l ∧ 0 ≤ r := by
  cases cat with
  | none => cases h
  | fwdNarrow | fwdWide | left | right => cases h; exact ⟨Int.natCast_nonneg _, Int.natCast_nonneg _⟩
  | stop => cases h; exact ⟨le_rfl, le_rfl⟩

theorem exists_speed_gt_of_speedOutOfRange {s : State} (hw : s.cfg.wf = true) (h : speedOutOfRange s = true) :
    ∃ l r lab, speedRule s.cfg s.base s.cat = some (l, r, lab) ∧ (255 < l ∨ 255 < r) := by
  obtain ⟨hmin, hmax, -, -⟩ := wf_bounds hw
  unfold speedOutOfRange at h
  split at h
  next l r lab hrule =>
    obtain ⟨hl, hr⟩ := speedRule_nonneg hrule
    rw [hmin, hmax, decide_eq_true_eq] at h
    exact ⟨l, r, lab, hrule, by omega⟩
  next => cases h

/-- MAP saturates the speed that is out of range at 255 (42_drive_mapper.md R163). -/
theorem mapDrive_of_speedOutOfRange {s : State} (hw : s.cfg.wf = true) (h : speedOutOfRange s = true) :
    (mapDrive s).ls = 255 ∨ (mapDrive s).rs = 255 := by
  obtain ⟨l, r, lab, hrule, hl | hr⟩ := exists_speed_gt_of_speedOutOfRange hw h <;> rw [mapDrive_of_match hrule]
  · exact .inl (sat8_of_gt hw hl)
  · exact .inr (sat8_of_gt hw hr)

/-- Settles O47: a step can meet one condition only, a hang is a hold, and MAP keeps or saturates the Drive Output. -/
theorem errorConditionsOfOneStepAndTheirEffects : Obligations.ErrorConditionsOfOneStepAndTheirEffects := by
  refine ⟨fun s i c c' h h' => (eq_of_meetsCondition h).trans (eq_of_meetsCondition h').symm, ?hangWait, ?unclassified,
    ?outOfRange⟩
  case hangWait =>
    intro s t i h he
    obtain h | h := exec_of_holds (meetsCondition_hangWait_iff.1 h) <;> cases h.symm.trans he <;> rfl
  case unclassified =>
    intro s t i h he
    obtain ⟨rfl, hcat⟩ := meetsCondition_unclassified_iff.1 h
    obtain ⟨p, -, rfl⟩ := exec_map_eq_next.1 he
    rw [mapDrive_of_cat_none hcat]
    rfl
  case outOfRange =>
    intro s t i hw h he
    obtain ⟨rfl, hout⟩ := meetsCondition_outOfRange_iff.1 h
    obtain ⟨p, -, rfl⟩ := exec_map_eq_next.1 he
    exact (mapDrive_of_speedOutOfRange hw hout).imp (congrArg BitVec.toNat) (congrArg BitVec.toNat)

end Sys2Proof.Machine
end

section
/-! PROOFS. The statements of 70_reset_and_hazards.md: what a step under an asserted `rst` answers, and the emitter level
at the steps that wait for a collaborator. -/

namespace Sys2Proof.Machine

/-! ### A step under an asserted rst -/

theorem State.rstLevel_of_cons {s : State} {b : Bool} {rest : List Bool} (h : s.rstIn = b :: rest) : s.rstLevel = b := by
  simp [State.rstLevel, h]

theorem State.rstTaken_of_cons {s : State} {b : Bool} {rest : List Bool} (h : s.rstIn = b :: rest) :
    s.rstTaken = { s with rstIn := rest } := by
  simp [State.rstTaken, h]

/-- Settles O2: with `rst` high a step goes on by `assertReset`, which resets the registers and keeps all else. -/
theorem assertedRstResetsEveryRegister : Obligations.AssertedRstResetsEveryRegister := by
  intro s rest hw ht hr
  refine tick_eq_next.2 ⟨ht, hw, .inl ⟨State.rstLevel_of_cons hr, ?_⟩⟩
  rw [State.rstTaken_of_cons hr]
  rfl

/-! ### Where the EMITs stand in the sequence -/

/-- In both sequences EMIT 1 comes before every SAMP, and EMIT 0 before those of the OFF bank only
(30_encoding.md R93, R105). -/
theorem emit_mem_opsBefore_of_samp :
    ∀ (rp : RecvPos) (bank : Bank) (k : Phase) (ch : Channel), opAt rp k = .samp bank ch →
      .emit true ∈ opsBefore rp k.val ∧ (.emit false ∈ opsBefore rp k.val ↔ bank = .off) := by
  intro rp bank
  cases rp <;> cases bank <;> decide

/-- In both sequences RECV does not stand between EMIT 1 and EMIT 0. -/
theorem emit_mem_opsBefore_of_recv :
    ∀ (rp : RecvPos) (k : Phase), opAt rp k = .recv → .emit true ∈ opsBefore rp k.val →
      .emit false ∈ opsBefore rp k.val := by
  intro rp
  cases rp <;> decide

/-! ### The emitter level at a step -/

/-- The emitter is lit exactly when EMIT 1 stands before `PH` and EMIT 0 does not (20_memory.md R70). -/
theorem Inv.emit_iff {s : State} (h : Inv s) :
    s.emit = true ↔ .emit true ∈ opsBefore s.cfg.recvPos s.ph.val ∧ .emit false ∉ opsBefore s.cfg.recvPos s.ph.val := by
  rw [h.emitter, Bool.and_eq_true, Bool.not_eq_true', ← Bool.not_eq_true, performed_iff_mem h.rom, performed_iff_mem h.rom]

theorem Inv.emit_iff_of_samp {s : State} (h : Inv s) {bank : Bank} {ch : Channel}
    (hop : opAt s.cfg.recvPos s.ph = .samp bank ch) : s.emit = true ↔ bank = .on := by
  obtain ⟨hlit, hdark⟩ := emit_mem_opsBefore_of_samp _ _ _ _ hop
  rw [h.emit_iff, and_iff_right hlit, hdark]
  cases bank <;> decide

theorem Inv.emit_of_recv {s : State} (h : Inv s) (hop : opAt s.cfg.recvPos s.ph = .recv) : s.emit = false := by
  rw [← Bool.not_eq_true, h.emit_iff]
  rintro ⟨hlit, hdark⟩
  exact hdark (emit_mem_opsBefore_of_recv _ _ hop hlit)

/-- At a cycle boundary no EMIT of the cycle is done, so the emitter is dark. -/
theorem Inv.emit_of_boundary {s : State} (h : Inv s) (hph : s.ph = 0) : s.emit = false := by
  simp [h.emitter, performed_of_boundary hph]

/-- Settles O43: the invariant tells the level from the EMITs before `PH`, and the sequence fixes where those stand. -/
theorem emitterLevelAtBlockingSteps : Obligations.EmitterLevelAtBlockingSteps := fun _ h =>
  ⟨fun _ _ hd => h.emit_iff_of_samp (h.opAt_of_decode hd), fun hd => h.emit_of_recv (h.opAt_of_decode hd),
    h.emit_of_boundary⟩

end Sys2Proof.Machine
end
